-- ==== Sys2Proof/Word.lean ====
section
/-!
DEFINITION. The plain values of the protocol: bytes, groups of eight, character codes, and the three closed ON/OFF
enumerations.  Spec: 00_scope.md sections 5 and 6, 30_encoding.md rule R66, 20_memory.md rule R44 (no value of the protocol is
wider than one byte).
-/

namespace Sys2Proof

/-- A byte: 8 bits, an unsigned value 0 to 255 (00_scope.md section 6; parameter `ARG_W` = 8). -/
abbrev Byte := BitVec 8

/-- Exactly eight values in order, index 0 first: the eight rows of a pattern, the eight bytes of a glyph
(`GLYPH_ROWS` = 8).  Another count cannot be written down (92_eei_decisions.md D11). -/
structure Octet (α : Type) where
  e0 : α
  e1 : α
  e2 : α
  e3 : α
  e4 : α
  e5 : α
  e6 : α
  e7 : α
  deriving DecidableEq, Repr, Inhabited

/-- The eight values in index order. -/
def Octet.toList {α : Type} (o : Octet α) : List α :=
  [o.e0, o.e1, o.e2, o.e3, o.e4, o.e5, o.e6, o.e7]

/-- The value at an index. -/
def Octet.get {α : Type} (o : Octet α) (k : Fin 8) : α :=
  match k with
  | 0 => o.e0
  | 1 => o.e1
  | 2 => o.e2
  | 3 => o.e3
  | 4 => o.e4
  | 5 => o.e5
  | 6 => o.e6
  | 7 => o.e7

/-- The same function at every index. -/
def Octet.map {α β : Type} (f : α → β) (o : Octet α) : Octet β :=
  { e0 := f o.e0, e1 := f o.e1, e2 := f o.e2, e3 := f o.e3, e4 := f o.e4, e5 := f o.e5, e6 := f o.e6, e7 := f o.e7 }

/-- The same value at every index. -/
def Octet.fill {α : Type} (a : α) : Octet α :=
  { e0 := a, e1 := a, e2 := a, e3 := a, e4 := a, e5 := a, e6 := a, e7 := a }

/-- A glyph: eight bytes, `e0` the top row (10_state.md rule R19, 30_encoding.md rule R67). -/
abbrev Glyph := Octet Byte

/-- One pattern character, by its code.  Its width is the open parameter `CHAR_W` (92_eei_decisions.md D10); that a code fits
that width is a check of WellFormed. -/
abbrev CharCode := Nat

/-- One line of a pattern, leftmost character first. -/
abbrev Row := List CharCode

/-- The packer's input: eight rows, `e0` the top one (42_glyph.md rule R151). -/
abbrev Pattern := Octet Row

/-- The `state` operand of SET_AUTOSCROLL: closed, two values (30_encoding.md rule R66). -/
inductive Autoscroll where
  | on
  | off
  deriving DecidableEq, Repr, Inhabited

/-- The `underline` operand of SET_CURSOR_FLAGS: closed, two values (30_encoding.md rule R66). -/
inductive UnderlineCursor where
  | on
  | off
  deriving DecidableEq, Repr, Inhabited

/-- The `block` operand of SET_CURSOR_FLAGS: closed, two values (30_encoding.md rule R66). -/
inductive BlockCursor where
  | on
  | off
  deriving DecidableEq, Repr, Inhabited

end Sys2Proof
end

