-- ==== Sys2Proof/Syntax.lean ====
section
/-!
DEFINITION. The operations, one constructor per mnemonic of spec/opcode_table.json.  The table's rows that differ only in an
ON/OFF operand (its "variant") are one constructor with that operand.
-/

namespace Sys2Proof

/-- An operation with its operand values: the fifteen sink-writing operations of 30_encoding.md rule R73, PACK_GLYPH
(42_glyph.md rule R151), and the three pseudo-operations of rule R77 that have a row of the table. -/
inductive Instr where
  /-- `SET_BG_COLOR r, g, b` (40_display_config.md rule R101). -/
  | setBgColor (r g b : Byte)
  /-- `BACKLIGHT_ON` (rule R102). -/
  | backlightOn
  /-- `BACKLIGHT_OFF` (rule R103). -/
  | backlightOff
  /-- `SET_BRIGHTNESS bright` (rule R104). -/
  | setBrightness (bright : Byte)
  /-- `SET_CONTRAST contrast` (rule R105). -/
  | setContrast (contrast : Byte)
  /-- `SET_AUTOSCROLL state` (rule R106). -/
  | setAutoscroll (state : Autoscroll)
  /-- `SET_DISPLAY_SIZE cols, rows` (rule R107). -/
  | setDisplaySize (cols rows : Byte)
  /-- `CLEAR` (rule R108). -/
  | clear
  /-- `SET_CURSOR_FLAGS underline, block` (41_cursor.md rule R130). -/
  | setCursorFlags (underline : UnderlineCursor) (block : BlockCursor)
  /-- `GO_HOME` (rule R131). -/
  | goHome
  /-- `SET_CURSOR_POSITION col, row` (rule R132). -/
  | setCursorPosition (col row : Byte)
  /-- `CURSOR_FORWARD` (rule R133). -/
  | cursorForward
  /-- `CURSOR_BACK` (rule R134). -/
  | cursorBack
  /-- `CREATE_CHAR slot, glyph` (42_glyph.md rule R150). -/
  | createChar (slot : Byte) (glyph : Glyph)
  /-- `RAW raw` (43_raw.md rule R180). -/
  | raw (payload : List Byte)
  /-- `PACK_GLYPH rows` (42_glyph.md rule R151). -/
  | packGlyph (rows : Pattern)
  /-- `SET_SPLASH text`, which stands for `RAW ([0xFE, 0x40] ++ text)` (30_encoding.md rule R77, 43_raw.md rule R184). -/
  | setSplash (text : List Byte)
  /-- `SAVE_CHARS bank`, which stands for `RAW [0xFE, 0xC1, bank]` (rules R77, R185). -/
  | saveChars (bank : Byte)
  /-- `LOAD_CHARS bank`, which stands for `RAW [0xFE, 0xC0, bank]` (rules R77, R186). -/
  | loadChars (bank : Byte)
  deriving DecidableEq, Repr

end Sys2Proof
end

