-- ==== Sys2Proof/Decode.lean ====
section
/-!
DEFINITION. The encodings.  First the wire: the opcode map (30_encoding.md rule R68), the decoder of one burst, and the reader of a
stream (rules R71, R72).  Then the request side: the request port with its operand fields (10_state.md rule R11) and the operation
selector `op_sel` (rules R73 to R75), whose decoder is what the step uses.  Then the encoders, and `decodeTableWord`.
-/

namespace Sys2Proof

/-! ## The opcode map -/

/-- `PREFIX`, the first byte of every frame (30_encoding.md rule R61). -/
def commandPrefix : Byte := 0xFE#8

/-- The twenty-one opcodes of 30_encoding.md rule R68. -/
inductive Opcode where
  | setSplash
  | backlightOn
  | backlightOff
  | setCursorPosition
  | goHome
  | underlineOn
  | underlineOff
  | cursorBack
  | cursorForward
  | createChar
  | autoscrollOn
  | autoscrollOff
  | blockOn
  | blockOff
  | clear
  | contrast
  | brightness
  | loadChars
  | saveChars
  | setRgb
  | setSize
  deriving DecidableEq, Repr

/-- The opcode's byte on the wire (rule R68). -/
def Opcode.byte (o : Opcode) : Byte :=
  match o with
  | .setSplash => 0x40#8
  | .backlightOn => 0x42#8
  | .backlightOff => 0x46#8
  | .setCursorPosition => 0x47#8
  | .goHome => 0x48#8
  | .underlineOn => 0x4A#8
  | .underlineOff => 0x4B#8
  | .cursorBack => 0x4C#8
  | .cursorForward => 0x4D#8
  | .createChar => 0x4E#8
  | .autoscrollOn => 0x51#8
  | .autoscrollOff => 0x52#8
  | .blockOn => 0x53#8
  | .blockOff => 0x54#8
  | .clear => 0x58#8
  | .contrast => 0x91#8
  | .brightness => 0x99#8
  | .loadChars => 0xC0#8
  | .saveChars => 0xC1#8
  | .setRgb => 0xD0#8
  | .setSize => 0xD1#8

/-- Every opcode, in the order of rule R68's table. -/
def Opcode.all : List Opcode :=
  [.setSplash, .backlightOn, .backlightOff, .setCursorPosition, .goHome, .underlineOn, .underlineOff, .cursorBack,
    .cursorForward, .createChar] ++
  [.autoscrollOn, .autoscrollOff, .blockOn, .blockOff, .clear, .contrast, .brightness, .loadChars, .saveChars, .setRgb,
    .setSize]

/-- The opcode a byte stands for; `none` for the 235 values the spec does not list (rule R69). -/
def Opcode.ofByte (b : Byte) : Option Opcode :=
  Opcode.all.find? (fun o => o.byte == b)

/-- How many argument bytes follow the opcode (rule R71); `none` for 0x40, whose end is not defined
(91_not_in_source.md N7). -/
def Opcode.argCount (o : Opcode) : Option Nat :=
  match o with
  | .setSplash => none
  | .backlightOff | .goHome | .underlineOn | .underlineOff | .cursorBack | .cursorForward | .autoscrollOn
  | .autoscrollOff | .blockOn | .blockOff | .clear => some 0
  | .backlightOn | .contrast | .brightness | .loadChars | .saveChars => some 1
  | .setCursorPosition | .setSize => some 2
  | .setRgb => some 3
  | .createChar => some 9

/-- The opcodes no operation of the block emits (rule R68, "wire-only"). -/
def Opcode.wireOnly (o : Opcode) : Bool :=
  match o with
  | .setSplash | .loadChars | .saveChars => true
  | .backlightOn | .backlightOff | .setCursorPosition | .goHome | .underlineOn | .underlineOff | .cursorBack
  | .cursorForward | .createChar | .autoscrollOn | .autoscrollOff | .blockOn | .blockOff | .clear | .contrast
  | .brightness | .setRgb | .setSize => false

/-- The opcode the `state` operand selects (rule R66). -/
def Autoscroll.opcode (a : Autoscroll) : Opcode :=
  match a with
  | .on => .autoscrollOn
  | .off => .autoscrollOff

/-- The opcode the `underline` operand selects (rule R66). -/
def UnderlineCursor.opcode (u : UnderlineCursor) : Opcode :=
  match u with
  | .on => .underlineOn
  | .off => .underlineOff

/-- The opcode the `block` operand selects (rule R66). -/
def BlockCursor.opcode (k : BlockCursor) : Opcode :=
  match k with
  | .on => .blockOn
  | .off => .blockOff

/-- The optional one-bit form of `state`: 0 is ON, 1 is OFF (rule R74, 92_eei_decisions.md D4). -/
def Autoscroll.bit (a : Autoscroll) : Byte :=
  match a with
  | .on => 0#8
  | .off => 1#8

/-- The optional one-bit form of `underline` (rule R74). -/
def UnderlineCursor.bit (u : UnderlineCursor) : Byte :=
  match u with
  | .on => 0#8
  | .off => 1#8

/-- The optional one-bit form of `block` (rule R74). -/
def BlockCursor.bit (k : BlockCursor) : Byte :=
  match k with
  | .on => 0#8
  | .off => 1#8

/-! ## Decoding one burst -/

/-- Why a byte sequence is not the burst of a framed operation. -/
inductive WireError where
  /-- It does not begin with the command byte 0xFE. -/
  | notAFrame
  /-- The byte after 0xFE is none of the twenty-one opcodes (rule R69). -/
  | unlistedOpcode (b : Byte)
  /-- The number of argument bytes is not the opcode's (rule R71), or a constant byte has another value. -/
  | wrongArguments
  /-- A cursor-flag frame that is not half of a SET_CURSOR_FLAGS burst; only RAW sends one (rule R183). -/
  | loneCursorFlag
  deriving DecidableEq, Repr

/-- An operation with no argument bytes. -/
def argsNone (i : Instr) (args : List Byte) : Except WireError Instr :=
  match args with
  | [] => .ok i
  | _ :: _ => .error .wrongArguments

/-- An operation with one argument byte. -/
def argsOne (f : Byte → Instr) (args : List Byte) : Except WireError Instr :=
  match args with
  | [a] => .ok (f a)
  | _ => .error .wrongArguments

/-- An operation with two argument bytes. -/
def argsTwo (f : Byte → Byte → Instr) (args : List Byte) : Except WireError Instr :=
  match args with
  | [a, b] => .ok (f a b)
  | _ => .error .wrongArguments

/-- An operation with three argument bytes. -/
def argsThree (f : Byte → Byte → Byte → Instr) (args : List Byte) : Except WireError Instr :=
  match args with
  | [a, b, c] => .ok (f a b c)
  | _ => .error .wrongArguments

/-- CREATE_CHAR's nine argument bytes: the slot, then the glyph in index order (rule R67). -/
def argsGlyph (args : List Byte) : Except WireError Instr :=
  match args with
  | [slot, g0, g1, g2, g3, g4, g5, g6, g7] =>
    .ok (.createChar slot { e0 := g0, e1 := g1, e2 := g2, e3 := g3, e4 := g4, e5 := g5, e6 := g6, e7 := g7 })
  | _ => .error .wrongArguments

/-- BACKLIGHT_ON's argument is the constant 0x00 (rule R102); another value is no operation's (rule R183). -/
def argsDummy (args : List Byte) : Except WireError Instr :=
  match args with
  | [a] => if a = 0#8 then .ok .backlightOn else .error .wrongArguments
  | _ => .error .wrongArguments

/-- The block frame that ends a SET_CURSOR_FLAGS burst (41_cursor.md rule R130). -/
def argsBlockFrame (u : UnderlineCursor) (args : List Byte) : Except WireError Instr :=
  match args with
  | [p, k] =>
    if p = commandPrefix then
      if k = BlockCursor.on.opcode.byte then .ok (.setCursorFlags u .on)
      else if k = BlockCursor.off.opcode.byte then .ok (.setCursorFlags u .off)
      else .error .loneCursorFlag
    else .error .loneCursorFlag
  | _ => .error .loneCursorFlag

/-- The operation whose burst has this opcode and these argument bytes (30_encoding.md rules R64, R68). -/
def decodeArgs (o : Opcode) (args : List Byte) : Except WireError Instr :=
  match o with
  | .setSplash => .ok (.setSplash args)
  | .backlightOn => argsDummy args
  | .backlightOff => argsNone .backlightOff args
  | .setCursorPosition => argsTwo .setCursorPosition args
  | .goHome => argsNone .goHome args
  | .underlineOn => argsBlockFrame .on args
  | .underlineOff => argsBlockFrame .off args
  | .cursorBack => argsNone .cursorBack args
  | .cursorForward => argsNone .cursorForward args
  | .createChar => argsGlyph args
  | .autoscrollOn => argsNone (.setAutoscroll .on) args
  | .autoscrollOff => argsNone (.setAutoscroll .off) args
  | .blockOn => .error .loneCursorFlag
  | .blockOff => .error .loneCursorFlag
  | .clear => argsNone .clear args
  | .contrast => argsOne .setContrast args
  | .brightness => argsOne .setBrightness args
  | .loadChars => argsOne .loadChars args
  | .saveChars => argsOne .saveChars args
  | .setRgb => argsThree .setBgColor args
  | .setSize => argsTwo .setDisplaySize args

/-- Read a whole burst as that of a framed operation or of a wire-only pseudo-operation, or say why it is none. -/
def decodeWire (bytes : List Byte) : Except WireError Instr :=
  match bytes with
  | p :: b :: args =>
    if p = commandPrefix then
      match Opcode.ofByte b with
      | some o => decodeArgs o args
      | none => .error (.unlistedOpcode b)
    else .error .notAFrame
  | _ => .error .notAFrame

/-- An operation whose burst is the given bytes.  Every byte sequence is some operation's burst: what no framed operation
sends, RAW sends (rules R69, R70, R183). -/
def decodeBurst (bytes : List Byte) : Instr :=
  match decodeWire bytes with
  | .ok i => i
  | .error _ => .raw bytes

/-! ## Encoding one burst -/

/-- The burst of an operation, from its operands alone (00_scope.md rule R9; the bytes of 30_encoding.md rule R64).
PACK_GLYPH has none. -/
def encode (i : Instr) : Option (List Byte) :=
  match i with
  | .setBgColor r g b => some [0xFE#8, 0xD0#8, r, g, b]
  | .backlightOn => some [0xFE#8, 0x42#8, 0x00#8]
  | .backlightOff => some [0xFE#8, 0x46#8]
  | .setBrightness bright => some [0xFE#8, 0x99#8, bright]
  | .setContrast contrast => some [0xFE#8, 0x91#8, contrast]
  | .setAutoscroll .on => some [0xFE#8, 0x51#8]
  | .setAutoscroll .off => some [0xFE#8, 0x52#8]
  | .setDisplaySize cols rows => some [0xFE#8, 0xD1#8, cols, rows]
  | .clear => some [0xFE#8, 0x58#8]
  | .setCursorFlags .on .on => some [0xFE#8, 0x4A#8, 0xFE#8, 0x53#8]
  | .setCursorFlags .on .off => some [0xFE#8, 0x4A#8, 0xFE#8, 0x54#8]
  | .setCursorFlags .off .on => some [0xFE#8, 0x4B#8, 0xFE#8, 0x53#8]
  | .setCursorFlags .off .off => some [0xFE#8, 0x4B#8, 0xFE#8, 0x54#8]
  | .goHome => some [0xFE#8, 0x48#8]
  | .setCursorPosition col row => some [0xFE#8, 0x47#8, col, row]
  | .cursorForward => some [0xFE#8, 0x4D#8]
  | .cursorBack => some [0xFE#8, 0x4C#8]
  | .createChar slot g =>
    some [0xFE#8, 0x4E#8, slot, g.e0, g.e1, g.e2, g.e3, g.e4, g.e5, g.e6, g.e7]
  | .raw payload => some payload
  | .packGlyph _ => none
  | .setSplash text => some (0xFE#8 :: 0x40#8 :: text)
  | .saveChars bank => some [0xFE#8, 0xC1#8, bank]
  | .loadChars bank => some [0xFE#8, 0xC0#8, bank]

/-! ## Reading a stream (what a device or a test does; the block never parses one) -/

/-- What a stream is made of (30_encoding.md rule R72). -/
inductive WireItem where
  | frame (o : Opcode) (args : List Byte)
  | text (b : Byte)
  deriving DecidableEq, Repr

/-- Where a reader of the stream stands between two bytes. -/
inductive ReaderState where
  /-- Outside a frame: the next byte is text, or 0xFE. -/
  | text
  /-- 0xFE has been read: the next byte is an opcode. -/
  | opcode
  /-- Inside a frame: these argument bytes have been read, this many and one more are missing. -/
  | args (o : Opcode) (got : List Byte) (more : Nat)
  /-- Inside the splash frame 0x40, whose end is not defined (N7): reading stops here. -/
  | splash (got : List Byte)
  /-- After an unlisted opcode, whose frame length is unknown (U3): reading stops here. -/
  | lost (b : Byte) (rest : List Byte)
  deriving DecidableEq, Repr

/-- One byte of the stream: the item it completes, if any, and the reader's next state (rules R71, R72). -/
def ReaderState.feed (r : ReaderState) (b : Byte) : List WireItem × ReaderState :=
  match r with
  | .text => if b = commandPrefix then ([], .opcode) else ([.text b], .text)
  | .opcode =>
    match Opcode.ofByte b with
    | none => ([], .lost b [])
    | some o =>
      match o.argCount with
      | none => ([], .splash [])
      | some 0 => ([.frame o []], .text)
      | some (n + 1) => ([], .args o [] n)
  | .args o got 0 => ([.frame o (got ++ [b])], .text)
  | .args o got (n + 1) => ([], .args o (got ++ [b]) n)
  | .splash got => ([], .splash (got ++ [b]))
  | .lost c rest => ([], .lost c (rest ++ [b]))

/-- The items of a byte sequence read from a given reader's state, and the state it ends in. -/
def ReaderState.read (r : ReaderState) (bytes : List Byte) : List WireItem × ReaderState :=
  match bytes with
  | [] => ([], r)
  | b :: rest =>
    let one := r.feed b
    let more := one.2.read rest
    (one.1 ++ more.1, more.2)

/-- How many bytes a reader will still take as part of the frame it is in; `none` when that is not known. -/
def ReaderState.missing (r : ReaderState) : Option Nat :=
  match r with
  | .text => some 0
  | .opcode => none
  | .args _ _ more => some (more + 1)
  | .splash _ => none
  | .lost _ _ => none

/-! ## The request side -/

/-- The request port: the operation selector of 30_encoding.md rule R74 and the operand fields of 10_state.md rule R11.  The
enumerated operands are the closed enumerations (92_eei_decisions.md D4). -/
structure ReqPort where
  opSel : BitVec 4
  r : Byte
  g : Byte
  b : Byte
  bright : Byte
  contrast : Byte
  state : Autoscroll
  cols : Byte
  rows : Byte
  underline : UnderlineCursor
  block : BlockCursor
  col : Byte
  row : Byte
  slot : Byte
  glyph : Glyph
  raw : List Byte
  deriving DecidableEq, Repr

/-- A port with every field zero, ON or empty.  DESIGN CHOICE (log 4): the spec leaves the fields unspecified at reset. -/
def ReqPort.zero : ReqPort :=
  { opSel := 0#4, r := 0#8, g := 0#8, b := 0#8, bright := 0#8, contrast := 0#8, state := .on, cols := 0#8, rows := 0#8,
    underline := .on, block := .on, col := 0#8, row := 0#8, slot := 0#8, glyph := Octet.fill 0#8, raw := [] }

/-- What the host presents: a request on the REQ channel, or a pattern on the packer's own channel PK
(92_eei_decisions.md D2, D29). -/
inductive Presentation where
  | req (p : ReqPort)
  | pk (rows : Pattern)
  deriving DecidableEq, Repr

/-- Why the block does not accept a request. -/
inductive PortError where
  /-- `op_sel` = 15 names no operation (rule R75). -/
  | reservedOpSel
  deriving DecidableEq, Repr

/-- Name a RAW request: a payload spelled like a pseudo-operation of rule R77 is that pseudo-operation, any other is RAW. -/
def decodeRaw (payload : List Byte) : Instr :=
  match decodeWire payload with
  | .ok (.setSplash text) => .setSplash text
  | .ok (.saveChars bank) => .saveChars bank
  | .ok (.loadChars bank) => .loadChars bank
  | _ => .raw payload

/-- The operation a request names: `op_sel` 0 to 14 in the order of rule R74, each with its own fields of the port and no
others; 15 is rejected by name (rule R75). -/
def decodePort (p : ReqPort) : Except PortError Instr :=
  match p.opSel.toNat with
  | 0 => .ok (.setBgColor p.r p.g p.b)
  | 1 => .ok .backlightOn
  | 2 => .ok .backlightOff
  | 3 => .ok (.setBrightness p.bright)
  | 4 => .ok (.setContrast p.contrast)
  | 5 => .ok (.setAutoscroll p.state)
  | 6 => .ok (.setDisplaySize p.cols p.rows)
  | 7 => .ok .clear
  | 8 => .ok (.setCursorFlags p.underline p.block)
  | 9 => .ok .goHome
  | 10 => .ok (.setCursorPosition p.col p.row)
  | 11 => .ok .cursorForward
  | 12 => .ok .cursorBack
  | 13 => .ok (.createChar p.slot p.glyph)
  | 14 => .ok (decodeRaw p.raw)
  | _ => .error .reservedOpSel

/-- The operation the host presents. -/
def decode (p : Presentation) : Except PortError Instr :=
  match p with
  | .req q => decodePort q
  | .pk rows => .ok (.packGlyph rows)

/-- How the host presents an operation: its `op_sel` and its own fields; the others, which the operation ignores, are as in
`ReqPort.zero`.  A pseudo-operation is presented as the RAW it stands for (rule R77). -/
def present (i : Instr) : Presentation :=
  match i with
  | .setBgColor r g b => .req { ReqPort.zero with opSel := 0#4, r := r, g := g, b := b }
  | .backlightOn => .req { ReqPort.zero with opSel := 1#4 }
  | .backlightOff => .req { ReqPort.zero with opSel := 2#4 }
  | .setBrightness bright => .req { ReqPort.zero with opSel := 3#4, bright := bright }
  | .setContrast contrast => .req { ReqPort.zero with opSel := 4#4, contrast := contrast }
  | .setAutoscroll state => .req { ReqPort.zero with opSel := 5#4, state := state }
  | .setDisplaySize cols rows => .req { ReqPort.zero with opSel := 6#4, cols := cols, rows := rows }
  | .clear => .req { ReqPort.zero with opSel := 7#4 }
  | .setCursorFlags underline block => .req { ReqPort.zero with opSel := 8#4, underline := underline, block := block }
  | .goHome => .req { ReqPort.zero with opSel := 9#4 }
  | .setCursorPosition col row => .req { ReqPort.zero with opSel := 10#4, col := col, row := row }
  | .cursorForward => .req { ReqPort.zero with opSel := 11#4 }
  | .cursorBack => .req { ReqPort.zero with opSel := 12#4 }
  | .createChar slot glyph => .req { ReqPort.zero with opSel := 13#4, slot := slot, glyph := glyph }
  | .raw payload => .req { ReqPort.zero with opSel := 14#4, raw := payload }
  | .packGlyph rows => .pk rows
  | .setSplash text => .req { ReqPort.zero with opSel := 14#4, raw := 0xFE#8 :: 0x40#8 :: text }
  | .saveChars bank => .req { ReqPort.zero with opSel := 14#4, raw := [0xFE#8, 0xC1#8, bank] }
  | .loadChars bank => .req { ReqPort.zero with opSel := 14#4, raw := [0xFE#8, 0xC0#8, bank] }

/-! ## The opcode table's words -/

/-- The `n` bytes of a table row's number, byte 0 of the burst first.  The table writes a row's bytes in sending order, so byte
0 stands at the most significant end of the number (DEDUCED, log 8). -/
def tableBytes (n w : Nat) : List Byte :=
  match n with
  | 0 => []
  | m + 1 => BitVec.ofNat 8 (w / 256 ^ m) :: tableBytes m w

/-- A frame with argument bytes missing, completed with zero bytes up to its opcode's length (rule R71). -/
def padFrame (bytes : List Byte) : List Byte :=
  match bytes with
  | p :: b :: args =>
    if p = commandPrefix then
      match (Opcode.ofByte b).bind Opcode.argCount with
      | some n => p :: b :: (args ++ List.replicate (n - args.length) 0#8)
      | none => bytes
    else bytes
  | _ => bytes

/-- The operation the decoder reads from a row of the opcode table: the row's bytes in sending order, missing argument bytes
zero.  Never `none`: every byte sequence is the burst of some operation (rule R70). -/
def decodeTableWord (nbits w : Nat) : Option Instr :=
  some (decodeBurst (padFrame (tableBytes (nbits / 8) w)))

/-! ## Text (the notation of 30_encoding.md rules R76 to R78) -/

/-- The bytes a quoted string stands for: its characters' 7-bit ASCII codes (rule R78, from general knowledge).  A character
outside that code has no byte. -/
def asciiBytes (cs : List Char) : Option (List Byte) :=
  match cs with
  | [] => some []
  | c :: rest =>
    if c.toNat < 128 then (asciiBytes rest).map (fun bs => BitVec.ofNat 8 c.toNat :: bs) else none

/-- `PRINT "text"` stands for `RAW "text"` (rule R77). -/
def pseudoPrint (text : List Byte) : Instr :=
  .raw text

/-- `PUT_CUSTOM k`, 0 to 7, stands for `RAW [k]`: it prints the glyph of slot k (rule R77, 20_memory.md rule R51). -/
def pseudoPutCustom (k : Fin 8) : Instr :=
  .raw [BitVec.ofNat 8 k.val]

end Sys2Proof
end

