-- ==== Sys2Proof/Machine/Operands.lean ====
section
/-!
DEFINITION. The forms of a burst (30_encoding.md rule R62), built from an opcode and operands.  Every operand is copied into its
argument byte unchanged (rule R63); nothing is escaped (rule R65).
-/

namespace Sys2Proof.Machine

/-- A frame: 0xFE, the opcode, the arguments in order (rule R60). -/
def frame (o : Opcode) (args : List Byte) : List Byte :=
  commandPrefix :: o.byte :: args

/-- Format `F0`, 2 bytes. -/
def formF0 (o : Opcode) : List Byte :=
  frame o []

/-- Format `F1`, 3 bytes. -/
def formF1 (o : Opcode) (a : Byte) : List Byte :=
  frame o [a]

/-- Format `F2`, 4 bytes. -/
def formF2 (o : Opcode) (a b : Byte) : List Byte :=
  frame o [a, b]

/-- Format `F3`, 5 bytes. -/
def formF3 (o : Opcode) (a b c : Byte) : List Byte :=
  frame o [a, b, c]

/-- Format `FG`, 11 bytes: the slot, then the glyph in index order (rule R67). -/
def formFG (slot : Byte) (glyph : Glyph) : List Byte :=
  frame .createChar (slot :: glyph.toList)

/-- Format `FF`, 4 bytes: two `F0` frames in one burst. -/
def formFF (o1 o2 : Opcode) : List Byte :=
  formF0 o1 ++ formF0 o2

/-- Format `RAW`: the payload itself. -/
def formRaw (payload : List Byte) : List Byte :=
  payload

/-- The payload of a wire-only pseudo-operation (30_encoding.md rule R77): a frame the host writes out, sent by RAW. -/
def formWireOnly (o : Opcode) (args : List Byte) : List Byte :=
  formRaw (frame o args)

end Sys2Proof.Machine
end

