-- ==== Sys2Proof/Config.lean ====
section
/-!
DEFINITION. What an implementation fixes (the open parameters of 00_scope.md section 5) and the free values (what the sink
answers, which no rule decides).
-/

namespace Sys2Proof

/-- The open parameters of 00_scope.md section 5 that the block itself depends on.  `none` is "unbounded". -/
structure Config where
  /-- `CHAR_W`, the width in bits of a pattern character's code (92_eei_decisions.md D10). -/
  charW : Nat
  /-- `ROW_MAX`, the longest pattern row the packer port carries (D14). -/
  rowMax : Option Nat
  /-- `RAW_MAX`, the longest RAW payload (D9). -/
  rawMax : Option Nat
  deriving DecidableEq, Repr

/-- The defaults the spec gives: `CHAR_W` = 8, `ROW_MAX` and `RAW_MAX` unbounded. -/
def Config.byDefault : Config :=
  { charW := 8, rowMax := none, rawMax := none }

/-- The sink's failure value, of the open type `ERR` (92_eei_decisions.md D7).  The block copies it and looks at nothing in
it; DESIGN CHOICE (log 2): the values are told apart by a natural number. -/
structure Err where
  code : Nat
  deriving DecidableEq, Repr, Inhabited

/-- What the sink does with one write: the answer `(count, failure)` of 20_memory.md rule R30, and the draws no
rule decides, how many bytes it passed on (60_exceptions.md rule R205), what it passed on where the sink contract of
20_memory.md rule R33 no longer holds, and how another writer's bytes fell between them (rule R38). -/
structure SinkAnswer where
  /-- The count the sink reports.  The block does not read it (rule R33). -/
  count : Nat
  /-- The failure the sink reports, if any. -/
  failure : Option Err
  /-- `k`: how many bytes of the burst the sink passed on, cut to the burst's length (rule R205). -/
  taken : Nat
  /-- What the device receives in place of the burst's bytes once the sink has broken its contract: any bytes
  (93_implementation_defined.md U14).  Read only then. -/
  stray : List Byte
  /-- The order in which the block's bytes (`false`) and another writer's bytes (`true`) reached the device (rule R38). -/
  mix : List Bool
  deriving DecidableEq, Repr, Inhabited

/-- FREE VALUE (log 1): the sink's answer to its n-th write.  "the sink's answer is a free input of every step"
(93_implementation_defined.md U12). -/
opaque Config.sinkAnswer : Nat → SinkAnswer

/-- FREE VALUE (log 1): the failure a closed handle's sink gives to its n-th write (10_state.md rule R18). -/
opaque Config.closedFailure : Nat → Err

end Sys2Proof
end

