-- ==== Sys2Proof/WellFormed.lean ====
section
/-!
DEFINITION. What a request must satisfy to be presented at all: the bounds an implementation may put on a RAW payload and
on a pattern (92_eei_decisions.md D9, D10, D14; 93_implementation_defined.md U16).  Under the default parameters the only check that can
fail is a character code that does not fit `CHAR_W` bits.  No operand VALUE is checked: the block validates nothing
(30_encoding.md rule R63), and a byte or an enumeration that is out of range cannot be written down.
-/

namespace Sys2Proof

/-- Why a request cannot be presented. -/
inductive IllFormed where
  /-- A RAW payload longer than `RAW_MAX` (U16: refused, never truncated). -/
  | payloadTooLong
  /-- A pattern row longer than `ROW_MAX` (D14). -/
  | rowTooLong
  /-- A character code that does not fit `CHAR_W` bits (D10). -/
  | charTooWide
  deriving DecidableEq, Repr

/-- The parameters are ones the spec allows: `CHAR_W` is at least 6, so that both off markers, 0x20 and 0x2E, can be
presented (00_scope.md section 5, D10). -/
abbrev Config.Admissible (c : Config) : Prop := 6 ≤ c.charW

/-- A length against an optional bound. -/
def fits (n : Nat) (bound : Option Nat) : Bool :=
  match bound with
  | none => true
  | some m => decide (n ≤ m)

/-- The check of a RAW payload's length. -/
def checkPayload (c : Config) (n : Nat) : Option IllFormed :=
  if fits n c.rawMax then none else some .payloadTooLong

/-- The check of a pattern: every row's length, then every code's width. -/
def checkPattern (c : Config) (rows : Pattern) : Option IllFormed :=
  if rows.toList.all (fun row => fits row.length c.rowMax) then
    if rows.toList.all (fun row => row.all (fun code => decide (code < 2 ^ c.charW))) then none else some .charTooWide
  else some .rowTooLong

/-- The check of an operation under an implementation's parameters: `none` when it can be presented. -/
def Instr.check (c : Config) (i : Instr) : Option IllFormed :=
  match i with
  | .setBgColor _ _ _ => none
  | .backlightOn => none
  | .backlightOff => none
  | .setBrightness _ => none
  | .setContrast _ => none
  | .setAutoscroll _ => none
  | .setDisplaySize _ _ => none
  | .clear => none
  | .setCursorFlags _ _ => none
  | .goHome => none
  | .setCursorPosition _ _ => none
  | .cursorForward => none
  | .cursorBack => none
  | .createChar _ _ => none
  | .raw payload => checkPayload c payload.length
  | .packGlyph rows => checkPattern c rows
  | .setSplash text => checkPayload c (text.length + 2)
  | .saveChars _ => checkPayload c 3
  | .loadChars _ => checkPayload c 3

/-- The operation can be presented. -/
abbrev Instr.WellFormed (c : Config) (i : Instr) : Prop := i.check c = none

/-- The payload is spelled like one of the three pseudo-operations of 30_encoding.md rule R77 that have a constructor of their
own: `[0xFE, 0x40] ++ text`, `[0xFE, 0xC1, bank]` or `[0xFE, 0xC0, bank]`. -/
def wireOnlySpelling (payload : List Byte) : Bool :=
  match payload with
  | a :: b :: rest =>
    a == 0xFE#8 && (b == 0x40#8 || ((b == 0xC1#8 || b == 0xC0#8) && rest.length == 1))
  | _ => false

/-- The operation is written the way the decoder writes it: a RAW payload spelled like a pseudo-operation is read as that
pseudo-operation, which is the same request (rule R77). -/
def Instr.canonical (i : Instr) : Bool :=
  match i with
  | .raw payload => !wireOnlySpelling payload
  | .setBgColor _ _ _ | .backlightOn | .backlightOff | .setBrightness _ | .setContrast _ | .setAutoscroll _
  | .setDisplaySize _ _ | .clear | .setCursorFlags _ _ | .goHome | .setCursorPosition _ _ | .cursorForward
  | .cursorBack | .createChar _ _ | .packGlyph _ | .setSplash _ | .saveChars _ | .loadChars _ => true

end Sys2Proof
end

