-- ==== Sys2Proof/Machine/State.lean ====
section
/-!
DEFINITION. The state: what 10_state.md gives the block and its reference sequencer, and the sink it writes to.  The block
itself keeps nothing from one operation to the next (rule R10); what stands here is the ports (rule R11), the status output
(70_reset_and_hazards.md rule R230), the host's list of requests and its index (rule R13), the trace (rule R21), the sink
(20_memory.md section 1) and the reset line (rule R231).  There is no memory: the block has no address space (rule R50).
-/

namespace Sys2Proof.Machine

/-- The result of an operation: `OK`, or `FAIL(e)` with the sink's failure (60_exceptions.md rule R206). -/
inductive Status where
  | ok
  | fail (e : Err)
  deriving DecidableEq, Repr

/-- One pair of the trace: a burst and the status its operation ended with (10_state.md rule R21). -/
structure Entry where
  burst : List Byte
  status : Status
  deriving DecidableEq, Repr

/-- The device handle, as the sink has it (10_state.md rule R18).  The block never opens or closes it (20_memory.md rule
R35): no step changes this. -/
inductive Link where
  /-- The sink answers as it will. -/
  | opened
  /-- The handle was closed: the sink answers every write with a failure. -/
  | closed
  /-- The transport's write never returns (93_implementation_defined.md U13). -/
  | hung
  deriving DecidableEq, Repr

/-- The sink (the transport): state that is not the block's. -/
structure Sink where
  /-- Whether the handle is open. -/
  link : Link
  /-- Answers the environment has already settled, next one first; when there is none the answer is a free value. -/
  answers : List SinkAnswer
  /-- THE MODEL'S OWN (log 3): how many answers have been drawn, the argument of the free values. -/
  draws : Nat
  /-- The bytes the device has received, first one first (60_exceptions.md rule R205).  DESIGN CHOICE (log 32): a byte the sink has
  passed on counts as received; there is no buffer of the transport. -/
  received : List Byte
  /-- THE MODEL'S OWN (log 11): a write without failure has not been taken whole, so the sink contract of 20_memory.md rule R33
  is broken and what the device receives from then on is any value (93_implementation_defined.md U14). -/
  shortWrite : Bool
  /-- Bytes another, unsynchronised writer of the same sink has still to put on it (20_memory.md rule R38). -/
  other : List Byte
  deriving DecidableEq, Repr

/-- The block's reset input (70_reset_and_hazards.md rule R231). -/
inductive ResetLine where
  | idle
  /-- A reset between two operations. -/
  | reset
  /-- A reset that falls inside the next operation and abandons it. -/
  | resetDuring
  deriving DecidableEq, Repr

/-- The machine's state. -/
structure State where
  /-- The implementation's parameters; no step changes them. -/
  cfg : Config
  /-- The request port's fields as the host last drove them (10_state.md rule R11). -/
  req : ReqPort
  /-- The packer port's input as the host last drove it (rule R11). -/
  pkRows : Pattern
  /-- The packer port's output (rule R11, 42_glyph.md rule R151).  DESIGN CHOICE (log 29): it shows a glyph until the next
  PACK_GLYPH; the spec does not say how long. -/
  glyphOut : Glyph
  /-- The status output: `none` while no status is pending (70_reset_and_hazards.md rule R230). -/
  rsp : Option Status
  /-- What the host has still to present, next one first: the rest of the program of rule R13. -/
  pending : List Presentation
  /-- The sequencer's index `i`: how many of the program's requests have been executed (rule R13). -/
  index : Nat
  /-- The trace (rule R21), first pair first. -/
  trace : List Entry
  /-- The sink. -/
  sink : Sink
  /-- The reset input. -/
  line : ResetLine
  deriving DecidableEq, Repr

/-- Why the machine stops. -/
inductive Fault where
  /-- Raised by every sink-writing operation while the transport's write never returns: the operation never ends and no
  status is returned (93_implementation_defined.md U13, treatment `stuck`).  Safe: nothing is claimed of what comes after. -/
  | sinkHang
  deriving DecidableEq, Repr

/-- Why a request is not run. -/
inductive Refusal where
  /-- An instruction without a meaning; answered by `exec` alone.  Safe. -/
  | notModelled (mnemonic : String)
  /-- Answered by the step when the request's `op_sel` is 15 (30_encoding.md rule R75).  Safe: the spec refuses it. -/
  | reservedOpSel
  /-- Answered by the step for a RAW payload over `RAW_MAX` (U16, 92_eei_decisions.md D9).  Safe: the spec refuses it. -/
  | payloadTooLong
  /-- Answered by the step for a pattern row over `ROW_MAX` (D14).  Safe: such a row cannot be presented. -/
  | rowTooLong
  /-- Answered by the step for a character code wider than `CHAR_W` bits (D10).  Safe: such a code cannot be presented. -/
  | charTooWide
  deriving DecidableEq, Repr

/-- The sink as the machine finds it: handle open (70_reset_and_hazards.md rule R233: the host has opened it), nothing received, the
sink contract not broken, no other writer.  DESIGN CHOICE (log 6). -/
def Sink.reset : Sink :=
  { link := .opened, answers := [], draws := 0, received := [], shortWrite := false, other := [] }

/-- The machine right after reset: idle and ready, no status pending, trace empty, index 0 (70_reset_and_hazards.md rule R230).  The
host has presented nothing yet (log 7).  The ports' values are DESIGN CHOICE (logs 4 and 5). -/
def State.reset : State :=
  { cfg := Config.byDefault
    req := ReqPort.zero
    pkRows := Octet.fill []
    glyphOut := Octet.fill 0#8
    rsp := none
    pending := []
    index := 0
    trace := []
    sink := Sink.reset
    line := .idle }

end Sys2Proof.Machine
end

