-- ==== Sys2Proof/Machine/Flags.lean ====
section
/-!
DEFINITION. The block has no flags and no condition codes (10_state.md rule R12).  What stands in their place is the status of an
operation, computed here from the sink's answer and from nothing else.
-/

namespace Sys2Proof.Machine

/-- The status a sink answer gives: `FAIL(e)` when it reports failure `e`, else `OK` (20_memory.md rule R33).  The count is
not read. -/
def statusOf (a : SinkAnswer) : Status :=
  match a.failure with
  | none => .ok
  | some e => .fail e

end Sys2Proof.Machine
end

