-- ==== Sys2Proof/Machine/Ops.lean ====
section
/-!
DEFINITION. The shared operations: one write to the sink, the status it gives, the common tail `exec` of every sink-writing
operation (40_display_config.md rule R100), raising the one exception (60_exceptions.md), what the block does when a request is
presented (20_memory.md rule R41), and reset (70_reset_and_hazards.md section 1).
-/

namespace Sys2Proof.Machine

/-! ## The sink -/

/-- Merge the bytes the sink takes of a burst with another writer's bytes, in the drawn order, each side keeping its own
order (20_memory.md rule R38).  Answers what the device receives and what the other writer has left. -/
def interleave (mix : List Bool) (bytes other : List Byte) : List Byte × List Byte :=
  match mix, bytes, other with
  | [], bs, os => (bs, os)
  | false :: m, b :: bs, os => let r := interleave m bs os; (b :: r.1, r.2)
  | false :: m, [], os => interleave m [] os
  | true :: m, bs, o :: os => let r := interleave m bs os; (o :: r.1, r.2)
  | true :: m, bs, [] => interleave m bs []

/-- The sink's answer to the next write: the settled one, or a free value.  A closed handle's sink always reports a
failure (10_state.md rule R18). -/
def Sink.nextAnswer (k : Sink) : SinkAnswer :=
  let a := match k.answers with
    | a :: _ => a
    | [] => Config.sinkAnswer k.draws
  match k.link with
  | .closed => { a with failure := some (a.failure.getD (Config.closedFailure k.draws)) }
  | .opened => a
  | .hung => a

/-- The answer breaks the sink contract of 20_memory.md rule R33: no failure, and not all of the burst taken.  The reported count is
not looked at: for every count the draws admit every stream (log 11). -/
def shortAnswer (a : SinkAnswer) (burst : List Byte) : Bool :=
  a.failure.isNone && decide (a.taken < burst.length)

/-- What the sink passes on of a burst when it may stop anywhere: a first part of it (60_exceptions.md rule R205); any bytes
once the contract has been broken (93_implementation_defined.md U14). -/
def Sink.firstPart (k : Sink) (burst : List Byte) (a : SinkAnswer) : List Byte :=
  if k.shortWrite then a.stray else burst.take a.taken

/-- What the sink passes on of a burst it gave this answer to: with a failure a first part of it (rule R205), without one all
of it under the contract of 20_memory.md rule R33, and any bytes when the answer breaks the contract (U14). -/
def Sink.passed (k : Sink) (burst : List Byte) (a : SinkAnswer) : List Byte :=
  if shortAnswer a burst then a.stray else k.firstPart burst a

/-- The device receives the bytes the sink passes on, merged with another writer's; the answer is used up.  DESIGN CHOICE (log 32): the
bytes are received in the step of the answer; whether the transport still holds some then is left open (20_memory.md rule R40,
70_reset_and_hazards.md rule R244). -/
def Sink.deliver (k : Sink) (bytes : List Byte) (a : SinkAnswer) : Sink :=
  let d := interleave a.mix bytes k.other
  { k with answers := k.answers.tail, draws := k.draws + 1, received := k.received ++ d.1, other := d.2 }

/-- The sink after a write it gave this answer to. -/
def Sink.write (k : Sink) (burst : List Byte) (a : SinkAnswer) : Sink :=
  { k.deliver (k.passed burst a) a with shortWrite := k.shortWrite || shortAnswer a burst }

/-- The sink after a write that a reset of the block cut off: nothing is answered, and what arrived is unknown as after a
failure (70_reset_and_hazards.md rule R231).  This breaks no contract. -/
def Sink.writeCutOff (k : Sink) (burst : List Byte) (a : SinkAnswer) : Sink :=
  k.deliver (k.firstPart burst a) a

/-- `SinkWrite(s)`: present a burst to the sink, whole and once (20_memory.md rules R30 to R32). -/
def State.sinkWrite (s : State) (burst : List Byte) (a : SinkAnswer) : State :=
  { s with sink := s.sink.write burst a }

/-- A `SinkWrite` that a reset of the block cut off (70_reset_and_hazards.md rule R231). -/
def State.sinkCutOff (s : State) (burst : List Byte) (a : SinkAnswer) : State :=
  { s with sink := s.sink.writeCutOff burst a }

/-! ## The end of an operation, and the one exception -/

/-- End an operation with a status: give it to the caller and append the pair to the trace (10_state.md rules R12, R21).  With
`OK` the operation returns (60_exceptions.md rule R206).  With `FAIL(e)` this IS taking the one exception, `raise
TransportWriteFailure(e)`: the status carries the sink's `e` unchanged, no other state changes, no vector is taken and nothing
is saved (rules R200, R201, R204, R205), so there is no return from it and nothing to restore (rule R209). -/
def State.report (s : State) (burst : List Byte) (st : Status) : State :=
  { s with rsp := some st, trace := s.trace ++ [{ burst := burst, status := st }] }

/-- A write that the sink answers with `a`, and the end with the status that follows from it: the exception exactly when the
answer has a failure (40_display_config.md rule R100, 60_exceptions.md rule R200). -/
def State.complete (s : State) (burst : List Byte) (a : SinkAnswer) : State :=
  (s.sinkWrite burst a).report burst (statusOf a)

/-- `exec(s)` of 40_display_config.md rule R100: one write of the whole burst, then the sink's status.  While the transport's
write never returns, the operation never ends (93_implementation_defined.md U13). -/
def execBurst (burst : List Byte) (s : State) : Host.Outcome State Fault Refusal :=
  match s.sink.link with
  | .hung => .fault .sinkHang
  | .opened => .next (s.complete burst s.sink.nextAnswer)
  | .closed => .next (s.complete burst s.sink.nextAnswer)

/-- The packer port's result (42_glyph.md rule R151): no burst, no status.  DESIGN CHOICE (log 29): the output shows the glyph until
the next PACK_GLYPH, through later sink-writing operations and resets; the spec does not say how long it does. -/
def State.returnGlyph (s : State) (g : Glyph) : State :=
  { s with glyphOut := g }

/-! ## Presenting a request -/

/-- The refusal that a rejected selector gives (30_encoding.md rule R75). -/
def refusalOfPort (e : PortError) : Refusal :=
  match e with
  | .reservedOpSel => .reservedOpSel

/-- The refusal that a failed check gives. -/
def refusalOfIllFormed (w : IllFormed) : Refusal :=
  match w with
  | .payloadTooLong => .payloadTooLong
  | .rowTooLong => .rowTooLong
  | .charTooWide => .charTooWide

/-- What the host presents next. -/
inductive Fetched where
  /-- Nothing: the run has ended, or has not begun (rules R13, R244). -/
  | idle
  /-- A request the block does not accept. -/
  | refused (r : Refusal)
  /-- A request and the operation it names. -/
  | accepted (p : Presentation) (i : Instr)
  deriving DecidableEq, Repr

/-- Accept a request: the host drives the port's fields, which the operation then reads (20_memory.md rule R41).  A request
on the REQ channel takes the status output back to "none pending": an earlier status is not kept (10_state.md rule R12). -/
def State.accept (s : State) (p : Presentation) : State :=
  match p with
  | .req q => { s with pending := s.pending.tail, req := q, rsp := none }
  | .pk rows => { s with pending := s.pending.tail, pkRows := rows }

/-- The operation that the driven port names: the block samples the request port, or the packer its own port (rule R41). -/
def State.sample (s : State) (p : Presentation) : Except PortError Instr :=
  match p with
  | .req _ => decodePort s.req
  | .pk _ => .ok (.packGlyph s.pkRows)

/-- Look at the next request: drive the port with it, sample the port, and check the operation it names. -/
def State.fetch (s : State) : Fetched :=
  match s.pending with
  | [] => .idle
  | p :: _ =>
    match (s.accept p).sample p with
    | .error e => .refused (refusalOfPort e)
    | .ok i =>
      match i.check s.cfg with
      | some w => .refused (refusalOfIllFormed w)
      | none => .accepted p i

/-- The sequencer's index moves on by one, whatever the status was (10_state.md rule R13). -/
def State.advance (s : State) : State :=
  { s with index := s.index + 1 }

/-! ## Reset -/

/-- Reset of the block: no status pending, trace empty, index 0, and nothing else (70_reset_and_hazards.md rule R230).  It
presents no burst (rule R231) and does not touch the sink, the handle or what the host drives. -/
def State.applyReset (s : State) : State :=
  { s with rsp := none, trace := [], index := 0, line := .idle }

/-- A reset that falls inside an operation: the operation is abandoned without a status, and what its burst left at the
sink is unknown, as after a failure (rule R231). -/
def State.abandon (s : State) : State :=
  match s.fetch with
  | .idle => s.applyReset
  | .refused _ => s.applyReset
  | .accepted p i =>
    match encode i with
    | none => (s.accept p).applyReset
    | some burst => ((s.accept p).sinkCutOff burst s.sink.nextAnswer).applyReset

/-- Put a request where the step takes its next one, with the reset line idle. -/
def State.placeNext (s : State) (p : Presentation) : State :=
  { s with pending := p :: s.pending.tail, line := .idle }

end Sys2Proof.Machine
end

