-- ==== Sys2Proof/Machine/Cursor.lean ====
section
/-!
DEFINITION. The cursor operations (41_cursor.md).
-/

namespace Sys2Proof.Machine

/-- `SET_CURSOR_FLAGS underline, block`: the underline frame and the block frame in one write of four bytes (rule R130,
90_conflicts.md C1). -/
def execSetCursorFlags (underline : UnderlineCursor) (block : BlockCursor) (s : State) :
    Host.Outcome State Fault Refusal :=
  execBurst (formFF underline.opcode block.opcode) s

/-- `GO_HOME`: `FE 48` (rule R131). -/
def execGoHome (s : State) : Host.Outcome State Fault Refusal :=
  execBurst (formF0 .goHome) s

/-- `SET_CURSOR_POSITION col, row`: `FE 47 col row` (rule R132). -/
def execSetCursorPosition (col row : Byte) (s : State) : Host.Outcome State Fault Refusal :=
  execBurst (formF2 .setCursorPosition col row) s

/-- `CURSOR_FORWARD`: `FE 4D` (rule R133). -/
def execCursorForward (s : State) : Host.Outcome State Fault Refusal :=
  execBurst (formF0 .cursorForward) s

/-- `CURSOR_BACK`: `FE 4C` (rule R134). -/
def execCursorBack (s : State) : Host.Outcome State Fault Refusal :=
  execBurst (formF0 .cursorBack) s

end Sys2Proof.Machine
end

