-- ==== Sys2Proof/Machine/Display.lean ====
section
/-!
DEFINITION. The display configuration operations (40_display_config.md).
-/

namespace Sys2Proof.Machine

/-- `SET_BG_COLOR r, g, b`: `FE D0 r g b` (rule R101). -/
def execSetBgColor (r g b : Byte) (s : State) : Host.Outcome State Fault Refusal :=
  execBurst (formF3 .setRgb r g b) s

/-- `BACKLIGHT_ON`: `FE 42 00`, the third byte a constant (rule R102). -/
def execBacklightOn (s : State) : Host.Outcome State Fault Refusal :=
  execBurst (formF1 .backlightOn 0x00#8) s

/-- `BACKLIGHT_OFF`: `FE 46` (rule R103). -/
def execBacklightOff (s : State) : Host.Outcome State Fault Refusal :=
  execBurst (formF0 .backlightOff) s

/-- `SET_BRIGHTNESS bright`: `FE 99 bright` (rule R104). -/
def execSetBrightness (bright : Byte) (s : State) : Host.Outcome State Fault Refusal :=
  execBurst (formF1 .brightness bright) s

/-- `SET_CONTRAST contrast`: `FE 91 contrast` (rule R105). -/
def execSetContrast (contrast : Byte) (s : State) : Host.Outcome State Fault Refusal :=
  execBurst (formF1 .contrast contrast) s

/-- `SET_AUTOSCROLL state`: the state is the opcode (rule R106). -/
def execSetAutoscroll (state : Autoscroll) (s : State) : Host.Outcome State Fault Refusal :=
  execBurst (formF0 state.opcode) s

/-- `SET_DISPLAY_SIZE cols, rows`: `FE D1 cols rows` (rule R107). -/
def execSetDisplaySize (cols rows : Byte) (s : State) : Host.Outcome State Fault Refusal :=
  execBurst (formF2 .setSize cols rows) s

/-- `CLEAR`: `FE 58` (rule R108). -/
def execClear (s : State) : Host.Outcome State Fault Refusal :=
  execBurst (formF0 .clear) s

end Sys2Proof.Machine
end

