-- ==== Sys2Proof/Machine/Glyph.lean ====
section
/-!
DEFINITION. Custom characters: CREATE_CHAR and the glyph bitmap packer (42_glyph.md).
-/

namespace Sys2Proof.Machine

/-- `CREATE_CHAR slot, glyph`: eleven bytes, every slot and all eight bits of every glyph byte as given (rule R150). -/
def execCreateChar (slot : Byte) (glyph : Glyph) (s : State) : Host.Outcome State Fault Refusal :=
  execBurst (formFG slot glyph) s

/-- The character test: everything but a space and a period is on (rule R152).  PRESUMED (log 17): the codes 0x20 and 0x2E
are ASCII's. -/
def isOn (c : CharCode) : Bool :=
  !(c == 0x20 || c == 0x2E)

/-- One character into the accumulator: shift left by one, bit 7 is lost, set the low bit for an on mark (rule R151). -/
def packChar (acc : Byte) (c : CharCode) : Byte :=
  (acc <<< 1) ||| (if isOn c then 1#8 else 0#8)

/-- A row's byte: the accumulator starts at 0 (rule R153) and takes the characters left to right. -/
def packRow (row : Row) : Byte :=
  row.foldl packChar 0#8

/-- The packer: row k to byte k, each row by itself (rules R151, R154). -/
def pack (rows : Pattern) : Glyph :=
  rows.map packRow

/-- `PACK_GLYPH rows`: the glyph on the packer's output; no burst, no status, no failure (rules R151, R207). -/
def execPackGlyph (rows : Pattern) (s : State) : Host.Outcome State Fault Refusal :=
  .next (s.returnGlyph (pack rows))

/-- `DEFINE_CHAR slot, rows` stands for CREATE_CHAR of the packed pattern (rule R158, 30_encoding.md rule R77).  DESIGN CHOICE (log
30): the packing is done where the notation is read and is no presentation on the packer's own port, so the port's output and
its bounds `ROW_MAX` and `CHAR_W` have no part in it, and the index counts one request. -/
def pseudoDefineChar (slot : Byte) (rows : Pattern) : Instr :=
  .createChar slot (pack rows)

end Sys2Proof.Machine
end

