-- ==== Sys2Proof/Machine/Raw.lean ====
section
/-!
DEFINITION. RAW and the pseudo-operations that stand for a RAW of a wire-only frame (43_raw.md).
-/

namespace Sys2Proof.Machine

/-- `RAW raw`: the payload verbatim, in one write, however long and also when empty (rule R180). -/
def execRaw (payload : List Byte) (s : State) : Host.Outcome State Fault Refusal :=
  execBurst (formRaw payload) s

/-- `SET_SPLASH text`: `RAW ([0xFE, 0x40] ++ text)` (rules R77, R184). -/
def execSetSplash (text : List Byte) (s : State) : Host.Outcome State Fault Refusal :=
  execBurst (formWireOnly .setSplash text) s

/-- `SAVE_CHARS bank`: `RAW [0xFE, 0xC1, bank]` (rules R77, R185). -/
def execSaveChars (bank : Byte) (s : State) : Host.Outcome State Fault Refusal :=
  execBurst (formWireOnly .saveChars [bank]) s

/-- `LOAD_CHARS bank`: `RAW [0xFE, 0xC0, bank]` (rules R77, R186). -/
def execLoadChars (bank : Byte) (s : State) : Host.Outcome State Fault Refusal :=
  execBurst (formWireOnly .loadChars [bank]) s

end Sys2Proof.Machine
end

