-- ==== Sys2Proof/Machine/Dispatch.lean ====
section
/-!
DEFINITION. The dispatch: one arm per operation, each one call of its meaning.
-/

namespace Sys2Proof.Machine

def exec (i : Instr) (s : State) : Host.Outcome State Fault Refusal :=
  match i with
  | .setBgColor r g b => Sys2Proof.Machine.execSetBgColor r g b s
  | .backlightOn => Sys2Proof.Machine.execBacklightOn s
  | .backlightOff => Sys2Proof.Machine.execBacklightOff s
  | .setBrightness bright => Sys2Proof.Machine.execSetBrightness bright s
  | .setContrast contrast => Sys2Proof.Machine.execSetContrast contrast s
  | .setAutoscroll state => Sys2Proof.Machine.execSetAutoscroll state s
  | .setDisplaySize cols rows => Sys2Proof.Machine.execSetDisplaySize cols rows s
  | .clear => Sys2Proof.Machine.execClear s
  | .setCursorFlags underline block => Sys2Proof.Machine.execSetCursorFlags underline block s
  | .goHome => Sys2Proof.Machine.execGoHome s
  | .setCursorPosition col row => Sys2Proof.Machine.execSetCursorPosition col row s
  | .cursorForward => Sys2Proof.Machine.execCursorForward s
  | .cursorBack => Sys2Proof.Machine.execCursorBack s
  | .createChar slot glyph => Sys2Proof.Machine.execCreateChar slot glyph s
  | .raw payload => Sys2Proof.Machine.execRaw payload s
  | .packGlyph rows => Sys2Proof.Machine.execPackGlyph rows s
  | .setSplash text => Sys2Proof.Machine.execSetSplash text s
  | .saveChars bank => Sys2Proof.Machine.execSaveChars bank s
  | .loadChars bank => Sys2Proof.Machine.execLoadChars bank s

end Sys2Proof.Machine
end

