-- ==== Sys2Proof/Machine/Step.lean ====
section
/-!
DEFINITION. One step: the block's reset, or one request of the host's, run as one indivisible transition (00_scope.md rules R8,
R9; the reference sequencer of 10_state.md rule R13).
-/

namespace Sys2Proof.Machine

/-- One step of the machine.  A request that is accepted runs, and the index moves on whatever its status was; when the host
presents nothing the block stays idle (log 9). -/
def step (s : State) : Host.Outcome State Fault Refusal :=
  match s.line with
  | .reset => .next s.applyReset
  | .resetDuring => .next s.abandon
  | .idle =>
    match s.fetch with
    | .idle => .next s
    | .refused r => .refused r
    | .accepted p i =>
      match exec i (s.accept p) with
      | .next t => .next t.advance
      | .fault f => .fault f
      | .refused r => .refused r

/-- The state with the operation of a table row as the next request (log 7). -/
def State.withFetchWord (s : State) (nbits w : Nat) : State :=
  match decodeTableWord nbits w with
  | some i => s.placeNext (present i)
  | none => s

end Sys2Proof.Machine
end

