-- ==== Sys2Proof/Safety.lean ====
section
/-!
DEFINITION. The terms claims are made in: the stream of a trace, the sink contract, the invariants of a run, the frames of an
operation, well-formed patterns, interleavings.
-/

namespace Sys2Proof

/-! ## Operations by kind -/

/-- The operation writes to the sink: all but PACK_GLYPH (20_memory.md rule R31). -/
def Instr.writesSink (i : Instr) : Bool :=
  (encode i).isSome

/-- The operation is RAW, or a pseudo-operation that stands for one (30_encoding.md rule R77). -/
def Instr.isRawKind (i : Instr) : Bool :=
  match i with
  | .raw _ | .setSplash _ | .saveChars _ | .loadChars _ => true
  | .setBgColor _ _ _ | .backlightOn | .backlightOff | .setBrightness _ | .setContrast _ | .setAutoscroll _
  | .setDisplaySize _ _ | .clear | .setCursorFlags _ _ | .goHome | .setCursorPosition _ _ | .cursorForward
  | .cursorBack | .createChar _ _ | .packGlyph _ => false

/-- One of the fourteen framed operations (90_conflicts.md C7): it writes to the sink and is not of RAW's kind. -/
def Instr.isFramed (i : Instr) : Bool :=
  i.writesSink && !i.isRawKind

/-- The burst's length in bytes (20_memory.md rule R48). -/
def Instr.burstLength (i : Instr) : Nat :=
  match i with
  | .backlightOff | .setAutoscroll _ | .clear | .goHome | .cursorForward | .cursorBack => 2
  | .backlightOn | .setBrightness _ | .setContrast _ => 3
  | .setDisplaySize _ _ | .setCursorPosition _ _ | .setCursorFlags _ _ => 4
  | .setBgColor _ _ _ => 5
  | .createChar _ _ => 11
  | .raw payload => payload.length
  | .setSplash text => text.length + 2
  | .saveChars _ | .loadChars _ => 3
  | .packGlyph _ => 0

/-- The frames of a framed operation's burst, as a reader of the stream finds them (30_encoding.md rules R64, R68). -/
def framesOf (i : Instr) : List WireItem :=
  match i with
  | .setBgColor r g b => [.frame .setRgb [r, g, b]]
  | .backlightOn => [.frame .backlightOn [0#8]]
  | .backlightOff => [.frame .backlightOff []]
  | .setBrightness bright => [.frame .brightness [bright]]
  | .setContrast contrast => [.frame .contrast [contrast]]
  | .setAutoscroll state => [.frame state.opcode []]
  | .setDisplaySize cols rows => [.frame .setSize [cols, rows]]
  | .clear => [.frame .clear []]
  | .setCursorFlags underline block => [.frame underline.opcode [], .frame block.opcode []]
  | .goHome => [.frame .goHome []]
  | .setCursorPosition col row => [.frame .setCursorPosition [col, row]]
  | .cursorForward => [.frame .cursorForward []]
  | .cursorBack => [.frame .cursorBack []]
  | .createChar slot glyph => [.frame .createChar (slot :: glyph.toList)]
  | .raw _ | .setSplash _ | .saveChars _ | .loadChars _ | .packGlyph _ => []

/-! ## Patterns -/

/-- `WF(rows)`: every row has exactly five characters (42_glyph.md rule R159).  The packer does not check it. -/
abbrev Pattern.fiveWide (rows : Pattern) : Prop :=
  ∀ k : Fin 8, (rows.get k).length = 5

/-- The on/off class of each character of a row, which is all the packer sees (rule R160). -/
def rowMarks (row : Row) : List Bool :=
  row.map Machine.isOn

/-- `m(j)` of rule R157: 1 if character j of the row is on, else 0. -/
def markAt (row : Row) (j : Nat) : Nat :=
  if (rowMarks row)[j]?.getD false then 1 else 0

end Sys2Proof

namespace Sys2Proof.Machine

/-! ## The stream and the sink contract -/

/-- The stream of a trace: the concatenation of its bursts in order (10_state.md rule R21). -/
def streamOf (trace : List Entry) : List Byte :=
  (trace.map Entry.burst).flatten

/-- Every status of the trace is `OK`. -/
def allOk (trace : List Entry) : Prop :=
  ∀ e ∈ trace, e.status = .ok

/-- The sink contract of 20_memory.md rule R33 for one write: an answer without failure means the sink took every byte of the
burst.  The model does not assume it (log 11); a claim about received bytes carries it, for all writes up to a state, as the
premise `sink.shortWrite = false`. -/
abbrev honours (a : SinkAnswer) (burst : List Byte) : Prop :=
  a.failure = none → burst.length ≤ a.taken

/-- No other writer has bytes for this sink (20_memory.md rule R39). -/
abbrev State.soleWriter (s : State) : Prop :=
  s.sink.other = []

/-- An interleaving of two byte sequences that keeps each one's own order (20_memory.md rule R38). -/
inductive Interleaving : List Byte → List Byte → List Byte → Prop where
  | nil : Interleaving [] [] []
  | left (b : Byte) {bs os zs : List Byte} : Interleaving bs os zs → Interleaving (b :: bs) os (b :: zs)
  | right (o : Byte) {bs os zs : List Byte} : Interleaving bs os zs → Interleaving bs (o :: os) (o :: zs)

/-- The device has gained a merge of the first `k` bytes of a burst with the next bytes of another writer, each side in its own
order (rule R38, 60_exceptions.md rule R205). -/
def GainedMerge (burst : List Byte) (k : Nat) (before after : Sink) : Prop :=
  ∃ gone zs, after.received = before.received ++ zs ∧ before.other = gone ++ after.other ∧
    Interleaving (burst.take k) gone zs

/-! ## What an operation leaves behind -/

/-- The state after one write of a burst that the sink answered with `a`: the sink has it, the trace has the pair, the caller has
the status, and nothing else is changed (40_display_config.md rule R100). -/
def State.afterWrite (s : State) (burst : List Byte) (a : SinkAnswer) : State :=
  { s with
    sink := s.sink.write burst a
    trace := s.trace ++ [{ burst := burst, status := statusOf a }]
    rsp := some (statusOf a) }

/-- The two states agree on everything that no operation writes: the parameters, both ports' inputs, the host's list, the index,
the reset line and the handle. -/
structure State.SameSurroundings (s t : State) : Prop where
  cfg : t.cfg = s.cfg
  req : t.req = s.req
  pkRows : t.pkRows = s.pkRows
  pending : t.pending = s.pending
  index : t.index = s.index
  line : t.line = s.line
  link : t.sink.link = s.sink.link

/-! ## Invariants -/

/-- The books of a run agree: no more pairs in the trace than requests executed (PACK_GLYPH adds none, 10_state.md rule R21), and a
status on the output is that of the trace's last pair. -/
structure State.Consistent (s : State) : Prop where
  count : s.trace.length ≤ s.index
  output : ∀ st, s.rsp = some st → s.trace.getLast?.map Entry.status = some st

/-- What has been delivered: while the sink has kept its contract and every status is `OK`, the device has received the trace's
stream, after whatever it had received before (10_state.md rule R21). -/
def State.Delivered (s : State) : Prop :=
  s.sink.shortWrite = false → allOk s.trace → streamOf s.trace <:+ s.sink.received

end Sys2Proof.Machine
end

