-- ==== Sys2Proof/Certificates/Slice0/Obligations.lean ====
section
/-!
DEFINITION. The statements for the provers.  Each docstring names the rule of spec/ it formalises.  `s.afterWrite burst a` is the
whole next state of a sink-writing operation: the sink has the burst and its answer `a`, the trace has the pair, the caller has the
status, and every other field is as it was (Safety.lean); that this takes in the parameters and the packer's output is the model's
choice (logs 18 and 29).
-/

open Sys2Proof Sys2Proof.Machine

/-! ## Reset and the step -/

/-- 70_reset_and_hazards.md section 1 (the spec's own choice, D18): after reset no status is pending, the trace is empty, the index is 0
and the block is idle; the books agree and nothing is owed to the device.  That the host's list is empty is the model's choice
(log 7), and that the reset line is idle is the model's choice too (log 13). -/
def Obligations.ResetStateIsIdle : Prop :=
  State.reset.rsp = none ∧ State.reset.trace = [] ∧ State.reset.index = 0 ∧ State.reset.line = .idle ∧
    State.reset.pending = [] ∧ State.reset.Consistent ∧ State.reset.Delivered

/-- Rules R230, R231 (the spec's own choice, D18): a reset between two operations clears the status output, the trace and the index,
emits nothing, and does not touch the sink.  The rest is the model's choice: the reset line and its return to idle (log 13), that
both ports, the packer's output and the host's list stay as they were (log 13: R230 calls the operand fields unspecified after
reset), and that the parameters do, being data that no step changes (logs 13 and 18). -/
def Obligations.ResetStepEmitsNothing : Prop :=
  ∀ s : State, s.line = .reset →
    ∃ t, step s = .next t ∧ t.rsp = none ∧ t.trace = [] ∧ t.index = 0 ∧ t.line = .idle ∧ t.sink = s.sink ∧
      t.pending = s.pending ∧ t.req = s.req ∧ t.pkRows = s.pkRows ∧ t.glyphOut = s.glyphOut ∧ t.cfg = s.cfg

/-- Rule R231 (the spec's own choice, D18; the model's form of it, log 14): a reset inside an operation abandons it: no status is returned
for it, the trace is empty, and, while the sink has kept its contract, what arrived of its burst is some first part of it, perhaps
none, among another writer's bytes.  Inside a PACK_GLYPH nothing is written and the packer's output stays as it was, and with no
accepted request there is no operation to abandon and the reset is a plain one: both are the model's choice (log 14).
Received means passed on by the sink (the model's choice, log 32). -/
def Obligations.ResetDuringAbandonsOperation : Prop :=
  ∀ s : State, s.line = .resetDuring →
    (∀ (p : Presentation) (i : Instr), s.fetch = .accepted p i →
      ∃ t, step s = .next t ∧ t.rsp = none ∧ t.trace = [] ∧ t.index = 0 ∧ t.line = .idle ∧
        t.pending = s.pending.tail ∧ t.glyphOut = s.glyphOut ∧ t.sink.link = s.sink.link ∧
        t.sink.shortWrite = s.sink.shortWrite ∧
        (encode i = none → t.sink = s.sink) ∧
        ∀ burst, encode i = some burst → s.sink.shortWrite = false →
          (∃ k, k ≤ burst.length ∧ GainedMerge burst k s.sink t.sink) ∧
          (s.soleWriter → ∃ k, k ≤ burst.length ∧ t.sink.received = s.sink.received ++ burst.take k)) ∧
    ((∀ p i, s.fetch ≠ .accepted p i) → step s = step { s with line := .reset })

/-- 10_state.md rule R13 and 20_memory.md rule R41 (the spec's own choices, D25 and D16): when the next request names an operation that
passes its check, the step is that operation's `exec` on the state whose port the host has driven, and then the index is one more.
That a pattern presented to the packer moves the index too is the model's reading (log 10, DEDUCED). -/
def Obligations.StepRunsPresentedRequest : Prop :=
  ∀ (s : State) (p : Presentation) (rest : List Presentation) (i : Instr),
    s.line = .idle → s.pending = p :: rest → decode p = .ok i → i.WellFormed s.cfg →
      (s.accept p).pending = rest ∧ (s.accept p).sink = s.sink ∧ (s.accept p).trace = s.trace ∧
      (s.accept p).index = s.index ∧
      (∀ t, exec i (s.accept p) = .next t → step s = .next { t with index := t.index + 1 }) ∧
      (∀ f, exec i (s.accept p) = .fault f → step s = .fault f) ∧
      (∀ r, exec i (s.accept p) = .refused r → step s = .refused r)

/-- Rules R13, R244 (the spec's own choices, D25 and D30; that the step answers the same state is the model's, log 9): when the host presents nothing, the step changes nothing. -/
def Obligations.StepIdleWithoutRequest : Prop :=
  ∀ s : State, s.line = .idle → s.pending = [] → step s = .next s

/-- 30_encoding.md rule R75 (the spec's own choice, D3): `op_sel` 15 is refused by name, whatever the other fields hold. -/
def Obligations.ReservedSelectorRefused : Prop :=
  ∀ (s : State) (p : ReqPort) (rest : List Presentation),
    s.line = .idle → s.pending = .req p :: rest → p.opSel = 15#4 → step s = .refused .reservedOpSel

/-- 93_implementation_defined.md U16 and 92_eei_decisions.md D9, D10, D14 (the spec's own choices; for rows and codes the model's form of
them, log 18): a payload over `RAW_MAX`, a row over `ROW_MAX` and a code over
`CHAR_W` bits are each refused by name; nothing is cut short. -/
def Obligations.UnpresentableRequestRefused : Prop :=
  (∀ (s : State) (p : ReqPort) (rest : List Presentation) (m : Nat),
    s.line = .idle → s.pending = .req p :: rest → p.opSel = 14#4 → s.cfg.rawMax = some m → m < p.raw.length →
      step s = .refused .payloadTooLong) ∧
  (∀ (s : State) (rows : Pattern) (rest : List Presentation) (m : Nat) (k : Fin 8),
    s.line = .idle → s.pending = .pk rows :: rest → s.cfg.rowMax = some m → m < (rows.get k).length →
      step s = .refused .rowTooLong) ∧
  (∀ (s : State) (rows : Pattern) (rest : List Presentation) (k : Fin 8) (c : CharCode),
    s.line = .idle → s.pending = .pk rows :: rest → (∀ j, fits (rows.get j).length s.cfg.rowMax = true) →
      c ∈ rows.get k → 2 ^ s.cfg.charW ≤ c → step s = .refused .charTooWide)

/-! ## What each operation presents -/

/-- 40_display_config.md rule R101. -/
def Obligations.SetBgColorPresents : Prop :=
  ∀ (r g b : Byte) (s : State), s.sink.link ≠ .hung →
    exec (.setBgColor r g b) s = .next (s.afterWrite [0xFE#8, 0xD0#8, r, g, b] s.sink.nextAnswer)

/-- Rule R102. -/
def Obligations.BacklightOnPresents : Prop :=
  ∀ s : State, s.sink.link ≠ .hung →
    exec .backlightOn s = .next (s.afterWrite [0xFE#8, 0x42#8, 0x00#8] s.sink.nextAnswer)

/-- Rule R103. -/
def Obligations.BacklightOffPresents : Prop :=
  ∀ s : State, s.sink.link ≠ .hung →
    exec .backlightOff s = .next (s.afterWrite [0xFE#8, 0x46#8] s.sink.nextAnswer)

/-- Rule R104. -/
def Obligations.SetBrightnessPresents : Prop :=
  ∀ (bright : Byte) (s : State), s.sink.link ≠ .hung →
    exec (.setBrightness bright) s = .next (s.afterWrite [0xFE#8, 0x99#8, bright] s.sink.nextAnswer)

/-- Rule R105. -/
def Obligations.SetContrastPresents : Prop :=
  ∀ (contrast : Byte) (s : State), s.sink.link ≠ .hung →
    exec (.setContrast contrast) s = .next (s.afterWrite [0xFE#8, 0x91#8, contrast] s.sink.nextAnswer)

/-- Rule R106: the state is the opcode. -/
def Obligations.SetAutoscrollPresents : Prop :=
  ∀ (state : Autoscroll) (s : State), s.sink.link ≠ .hung →
    exec (.setAutoscroll state) s =
      .next (s.afterWrite [0xFE#8, if state = .on then 0x51#8 else 0x52#8] s.sink.nextAnswer)

/-- Rule R107: columns first, rows second. -/
def Obligations.SetDisplaySizePresents : Prop :=
  ∀ (cols rows : Byte) (s : State), s.sink.link ≠ .hung →
    exec (.setDisplaySize cols rows) s = .next (s.afterWrite [0xFE#8, 0xD1#8, cols, rows] s.sink.nextAnswer)

/-- Rule R108. -/
def Obligations.ClearPresents : Prop :=
  ∀ s : State, s.sink.link ≠ .hung → exec .clear s = .next (s.afterWrite [0xFE#8, 0x58#8] s.sink.nextAnswer)

/-- 41_cursor.md rule R130: two frames in one write of four bytes, the underline frame first. -/
def Obligations.SetCursorFlagsPresents : Prop :=
  ∀ (underline : UnderlineCursor) (block : BlockCursor) (s : State), s.sink.link ≠ .hung →
    exec (.setCursorFlags underline block) s =
      .next (s.afterWrite
        [0xFE#8, if underline = .on then 0x4A#8 else 0x4B#8, 0xFE#8, if block = .on then 0x53#8 else 0x54#8]
        s.sink.nextAnswer)

/-- Rule R131. -/
def Obligations.GoHomePresents : Prop :=
  ∀ s : State, s.sink.link ≠ .hung → exec .goHome s = .next (s.afterWrite [0xFE#8, 0x48#8] s.sink.nextAnswer)

/-- Rule R132: the column first, the row second, both as given. -/
def Obligations.SetCursorPositionPresents : Prop :=
  ∀ (col row : Byte) (s : State), s.sink.link ≠ .hung →
    exec (.setCursorPosition col row) s = .next (s.afterWrite [0xFE#8, 0x47#8, col, row] s.sink.nextAnswer)

/-- Rule R133. -/
def Obligations.CursorForwardPresents : Prop :=
  ∀ s : State, s.sink.link ≠ .hung →
    exec .cursorForward s = .next (s.afterWrite [0xFE#8, 0x4D#8] s.sink.nextAnswer)

/-- Rule R134. -/
def Obligations.CursorBackPresents : Prop :=
  ∀ s : State, s.sink.link ≠ .hung → exec .cursorBack s = .next (s.afterWrite [0xFE#8, 0x4C#8] s.sink.nextAnswer)

/-- 42_glyph.md rule R150: eleven bytes, every slot and every bit of the glyph as given. -/
def Obligations.CreateCharPresents : Prop :=
  ∀ (slot : Byte) (glyph : Glyph) (s : State), s.sink.link ≠ .hung →
    exec (.createChar slot glyph) s =
      .next (s.afterWrite
        [0xFE#8, 0x4E#8, slot, glyph.get 0, glyph.get 1, glyph.get 2, glyph.get 3, glyph.get 4, glyph.get 5, glyph.get 6,
          glyph.get 7] s.sink.nextAnswer)

/-- 43_raw.md rule R180: the payload byte for byte, in one write, also when it is empty. -/
def Obligations.RawPresents : Prop :=
  ∀ (payload : List Byte) (s : State), s.sink.link ≠ .hung →
    exec (.raw payload) s = .next (s.afterWrite payload s.sink.nextAnswer)

/-- 30_encoding.md rule R77 and 43_raw.md rule R184 (the expansion is the spec's own, D27): the splash frame, through RAW. -/
def Obligations.SetSplashPresents : Prop :=
  ∀ (text : List Byte) (s : State), s.sink.link ≠ .hung →
    exec (.setSplash text) s = .next (s.afterWrite (0xFE#8 :: 0x40#8 :: text) s.sink.nextAnswer)

/-- Rules R77, R185, R186 (the expansions are the spec's own, D27): the EEPROM bank frames, through RAW. -/
def Obligations.BankFramesPresent : Prop :=
  ∀ (bank : Byte) (s : State), s.sink.link ≠ .hung →
    exec (.saveChars bank) s = .next (s.afterWrite [0xFE#8, 0xC1#8, bank] s.sink.nextAnswer) ∧
    exec (.loadChars bank) s = .next (s.afterWrite [0xFE#8, 0xC0#8, bank] s.sink.nextAnswer)

/-- 42_glyph.md rule R151 (width and zero start of the accumulator by rule R153, the spec's own choice, D13): PACK_GLYPH scans each row left to right, shifting the accumulator left and setting its low bit for an on
mark; it changes the packer's output and nothing else, and completes in every state, whatever the sink does. -/
def Obligations.PackGlyphReturnsGlyph : Prop :=
  (∀ (rows : Pattern) (s : State), ∃ t, exec (.packGlyph rows) s = .next t ∧ t = { s with glyphOut := t.glyphOut } ∧
    ∀ k, t.glyphOut.get k = packRow (rows.get k)) ∧
  packRow [] = 0#8 ∧
  ∀ (row : Row) (c : CharCode),
    packRow (row ++ [c]) = (packRow row <<< 1) ||| (if isOn c = true then 1#8 else 0#8)

/-! ## What holds of every operation -/

/-- Rules R31, R21: a sink-writing operation makes one write and adds one pair to the trace; PACK_GLYPH makes none and adds none (the
trace is the spec's own choice, D21).  That PACK_GLYPH leaves the status output alone is the model's choice (log 21). -/
def Obligations.ExactlyOneWrite : Prop :=
  ∀ (i : Instr) (s t : State), exec i s = .next t →
    (i.writesSink = true →
      t.sink.draws = s.sink.draws + 1 ∧ ∃ e, t.trace = s.trace ++ [e] ∧ encode i = some e.burst) ∧
    (i.writesSink = false → t.sink = s.sink ∧ t.trace = s.trace ∧ t.rsp = s.rsp)

/-- 00_scope.md rule R9 and 40_display_config.md rule R100: the burst is the encoding of the operands alone, and the status is the
sink's answer alone (R9 is the spec's own inference from R3). -/
def Obligations.BurstFromOperandsStatusFromSink : Prop :=
  ∀ (i : Instr) (burst : List Byte) (s : State), encode i = some burst → s.sink.link ≠ .hung →
    exec i s = .next (s.afterWrite burst s.sink.nextAnswer)

/-- 10_state.md rule R10: what an operation presents does not depend on the state it is run in. -/
def Obligations.HistoryCannotChangeBursts : Prop :=
  ∀ (i : Instr) (s1 s2 t1 t2 : State), exec i s1 = .next t1 → exec i s2 = .next t2 →
    ∃ added, t1.trace.map Entry.burst = s1.trace.map Entry.burst ++ added ∧
      t2.trace.map Entry.burst = s2.trace.map Entry.burst ++ added

/-- 10_state.md rules R11, R12 (the spec's own choice of port, D2, and its own inference): what earlier requests left in the request port and on the status output has no effect on the next
request. -/
def Obligations.OldPortContentsHaveNoEffect : Prop :=
  ∀ (s : State) (p q : ReqPort) (rest : List Presentation) (old : Option Status),
    s.line = .idle → s.pending = .req p :: rest → step { s with req := q, rsp := old } = step s

/-- The frame of all nineteen operations (rules R10, R12, R35, R100): no operation changes the ports' inputs, the host's list, the index,
the reset line or the handle, and the trace only grows at its end.  The rest is the model's choice: the parameters are data that
no operation changes (log 18), a sink-writing operation leaves the packer's output alone (log 29), and what the device has received
only grows at its end, also after the sink contract was broken (log 11), received meaning passed on by the sink (log 32). -/
def Obligations.OperationFrame : Prop :=
  ∀ (i : Instr) (s t : State), exec i s = .next t →
    s.SameSurroundings t ∧ (i.writesSink = true → t.glyphOut = s.glyphOut) ∧
      s.trace <+: t.trace ∧ s.sink.received <+: t.sink.received

/-- 60_exceptions.md rules R200, R204: a sink-writing operation ends with `FAIL(e)` exactly when the sink answers its one write with
failure `e`, the same `e`; there is no second write. -/
def Obligations.FailureExactlyWhenSinkReportsIt : Prop :=
  ∀ (i : Instr) (s t : State) (e : Err), i.writesSink = true → exec i s = .next t →
    (t.rsp = some (.fail e) ↔ s.sink.nextAnswer.failure = some e) ∧
    (t.rsp = some .ok ↔ s.sink.nextAnswer.failure = none) ∧
    t.trace.getLast?.map Entry.status = t.rsp ∧ t.sink.draws = s.sink.draws + 1

/-- 20_memory.md rule R33 (the spec's own choice, D5): the count the sink reports is not read. -/
def Obligations.SinkCountIsIgnored : Prop :=
  ∀ (i : Instr) (s : State) (a : SinkAnswer) (rest : List SinkAnswer) (c : Nat),
    i.writesSink = true → s.sink.answers = a :: rest →
      exec i { s with sink := { s.sink with answers := { a with count := c } :: rest } } = exec i s

/-- Rules R205, R212 (the spec's own choice, D6): when a write fails, the device may have received any first part of the burst: for each length there is an
answer of the sink that leaves exactly that much, with the same status.
Received means passed on by the sink (the model's choice, log 32). -/
def Obligations.AnyFirstPartMayArrive : Prop :=
  ∀ (i : Instr) (burst : List Byte) (s : State) (e : Err) (k : Nat),
    encode i = some burst → s.sink.link = .opened → s.soleWriter → k ≤ burst.length →
      ∃ (a : SinkAnswer) (t : State),
        exec i { s with sink := { s.sink with answers := [a] } } = .next t ∧ t.rsp = some (.fail e) ∧
          t.sink.received = s.sink.received ++ burst.take k

/-- 10_state.md rule R18: an operation on a closed handle presents its burst like any other and ends with a failure. -/
def Obligations.ClosedHandleStillPresents : Prop :=
  ∀ (i : Instr) (burst : List Byte) (s : State), encode i = some burst → s.sink.link = .closed →
    ∃ (t : State) (e : Err), exec i s = .next t ∧ t.rsp = some (.fail e) ∧
      t.trace = s.trace ++ [{ burst := burst, status := .fail e }]

/-- Rule R203 and 93_implementation_defined.md U13: an operation completes in every state, but for a sink-writing one whose write
never returns.  U13 calls that one stuck; that it stops as the fault sinkHang is the model's choice (log 15).  No operation is
refused. -/
def Obligations.OnlyAHungWriteStops : Prop :=
  ∀ (i : Instr) (s : State),
    if i.writesSink = true ∧ s.sink.link = .hung then exec i s = .fault .sinkHang else ∃ t, exec i s = .next t

/-- 20_memory.md rule R37: of two operations run one after the other, every byte of the first one's burst stands before every byte of
the second one's, in the stream and, for the sole writer, at the device.  What the device gets carries the sink contract of rule
R33 (the spec's own, D5; log 11) as a premise: no write so far, these two included, was short without a failure.  That it is a first
part of each burst is D6 (log 12).
Received means passed on by the sink (the model's choice, log 32). -/
def Obligations.ProgramOrderIsWireOrder : Prop :=
  ∀ (i j : Instr) (b1 b2 : List Byte) (s t u : State),
    encode i = some b1 → encode j = some b2 → exec i s = .next t → exec j t = .next u →
      streamOf u.trace = streamOf s.trace ++ b1 ++ b2 ∧
      (s.soleWriter → u.sink.shortWrite = false →
        (∃ k1 k2, k1 ≤ b1.length ∧ k2 ≤ b2.length ∧
          u.sink.received = s.sink.received ++ b1.take k1 ++ b2.take k2) ∧
        (t.rsp = some .ok → u.rsp = some .ok → u.sink.received = s.sink.received ++ b1 ++ b2))

/-- Rule R38 (the model of it is the spec's own, D17; log 20): with another writer on the sink, an operation's device receives an
interleaving, each side in its own order, of what the sink passed on (a first part of the burst, D6, log 12; under the contract of
rule R33, D5, log 11) and the next bytes of the other writer; and every such interleaving can happen, of any first part with any
failure, and of the whole burst without one.
Received means passed on by the sink (the model's choice, log 32). -/
def Obligations.EveryInterleavingCanHappen : Prop :=
  (∀ (i : Instr) (burst : List Byte) (s t : State), encode i = some burst → exec i s = .next t →
    t.sink.shortWrite = false → ∃ k, k ≤ burst.length ∧ GainedMerge burst k s.sink t.sink) ∧
  (∀ (i : Instr) (burst : List Byte) (s : State) (failure : Option Err) (k : Nat) (gone rest zs : List Byte),
    encode i = some burst → s.sink.link ≠ .hung → k ≤ burst.length → (failure = none → k = burst.length) →
      s.sink.other = gone ++ rest → Interleaving (burst.take k) gone zs →
        ∃ (a : SinkAnswer) (t : State), a.failure = failure ∧
          exec i { s with sink := { s.sink with answers := [a] } } = .next t ∧
          t.sink.received = s.sink.received ++ zs ∧ t.sink.other = rest ∧
          t.sink.shortWrite = s.sink.shortWrite)

/-- 20_memory.md rule R33 and 93_implementation_defined.md U14 (the spec's own, D5; the model's form, log 11): a write that is not taken
whole though no failure is reported breaks the sink contract and is answered `OK` all the same, and from that write on the device
may have received anything.
Received means passed on by the sink (the model's choice, log 32). -/
def Obligations.ShortWriteLeavesStreamFree : Prop :=
  (∀ (i : Instr) (burst : List Byte) (s t : State), encode i = some burst → exec i s = .next t →
    (t.sink.shortWrite = false ↔ s.sink.shortWrite = false ∧ honours s.sink.nextAnswer burst)) ∧
  (∀ (i : Instr) (burst zs : List Byte) (s : State), encode i = some burst → burst ≠ [] → s.sink.link = .opened →
    ∃ (a : SinkAnswer) (t : State), exec i { s with sink := { s.sink with answers := [a] } } = .next t ∧
      t.rsp = some .ok ∧ t.sink.shortWrite = true ∧ t.sink.received = s.sink.received ++ zs) ∧
  (∀ (i : Instr) (burst zs : List Byte) (s : State) (failure : Option Err), encode i = some burst →
    s.sink.shortWrite = true → s.sink.link = .opened →
      ∃ (a : SinkAnswer) (t : State), a.failure = failure ∧
        exec i { s with sink := { s.sink with answers := [a] } } = .next t ∧
        t.rsp = some (statusOf a) ∧ t.sink.shortWrite = true ∧ t.sink.received = s.sink.received ++ zs)

/-! ## Encodings -/

/-- The request side round trip (rules R73, R74, the spec's own choices D2, D3, D29): what the host presents for an operation is decoded as that operation, for all
nineteen and every operand; a RAW payload spelled like a pseudo-operation is that pseudo-operation (log 19). -/
def Obligations.DecodeOfPresentIsIdentity : Prop :=
  (∀ i : Instr, i.canonical = true → decode (present i) = .ok i) ∧
  (∀ i : Instr, ∃ j, decode (present i) = .ok j ∧ encode j = encode i)

/-- The wire round trip (rules R64, R68; that RAW takes every payload is rule R70, the spec's own inference): every byte sequence is the burst of the operation the decoder reads from it, and the burst
of every operation but RAW is read as that operation. -/
def Obligations.WireDecodeAndEncodeAgree : Prop :=
  (∀ bytes : List Byte, encode (decodeBurst bytes) = some bytes) ∧
  (∀ (i : Instr) (burst : List Byte), encode i = some burst → (∀ payload, i ≠ .raw payload) →
    decodeWire burst = .ok i ∧ decodeBurst burst = i)

/-- 30_encoding.md rules R66, R68, R71, R74 (the lengths and the bit form are the spec's own, D4): the opcode map, each opcode with its byte and its number of argument bytes; an opcode's byte is
read as it and no other byte is; and the ON/OFF operands select the opcodes of rule R66. -/
def Obligations.OpcodeMap : Prop :=
  Opcode.all.map (fun o => (o.byte, o.argCount)) =
    [(0x40#8, none), (0x42#8, some 1), (0x46#8, some 0), (0x47#8, some 2), (0x48#8, some 0), (0x4A#8, some 0),
      (0x4B#8, some 0), (0x4C#8, some 0), (0x4D#8, some 0), (0x4E#8, some 9)] ++
    [(0x51#8, some 0), (0x52#8, some 0), (0x53#8, some 0), (0x54#8, some 0), (0x58#8, some 0), (0x91#8, some 1),
      (0x99#8, some 1), (0xC0#8, some 1), (0xC1#8, some 1), (0xD0#8, some 3), (0xD1#8, some 2)] ∧
  (∀ (b : Byte) (o : Opcode), Opcode.ofByte b = some o ↔ o.byte = b) ∧
  (∀ a : Autoscroll, a.opcode.byte = 0x51#8 + a.bit) ∧
  (∀ u : UnderlineCursor, u.opcode.byte = 0x4A#8 + u.bit) ∧
  (∀ k : BlockCursor, k.opcode.byte = 0x53#8 + k.bit)

/-- Some words of the opcode table, byte by byte (rule R64), and what the decoder reads from them; and words it rejects by name.  The
table's words are numbers, and that byte 0 of the burst stands at their most significant end is the model's reading (log 8,
DEDUCED). -/
def Obligations.SampleWordsDecode : Prop :=
  decodeTableWord 40 0xFED0FF0080 = some (.setBgColor 255#8 0#8 128#8) ∧
  decodeTableWord 24 0xFE4200 = some .backlightOn ∧
  decodeTableWord 32 0xFE470502 = some (.setCursorPosition 5#8 2#8) ∧
  decodeTableWord 32 0xFE4BFE54 = some (.setCursorFlags .off .off) ∧
  decodeTableWord 16 0xFE4D = some .cursorForward ∧
  decodeTableWord 24 0xFEC101 = some (.saveChars 1#8) ∧
  decodeWire [0x48#8, 0x69#8] = .error .notAFrame ∧
  decodeWire [0xFE#8, 0x77#8] = .error (.unlistedOpcode 0x77#8)

/-- The request port, selector by selector (10_state.md rule R11, 30_encoding.md rule R74, the spec's own choices D2, D3): each operation reads its own
fields of the request port and ignores the rest. -/
def Obligations.SelectorReadsItsOwnFields : Prop :=
  ∀ p : ReqPort,
    (p.opSel = 0#4 → decodePort p = .ok (.setBgColor p.r p.g p.b)) ∧
    (p.opSel = 1#4 → decodePort p = .ok .backlightOn) ∧
    (p.opSel = 2#4 → decodePort p = .ok .backlightOff) ∧
    (p.opSel = 3#4 → decodePort p = .ok (.setBrightness p.bright)) ∧
    (p.opSel = 4#4 → decodePort p = .ok (.setContrast p.contrast)) ∧
    (p.opSel = 5#4 → decodePort p = .ok (.setAutoscroll p.state)) ∧
    (p.opSel = 6#4 → decodePort p = .ok (.setDisplaySize p.cols p.rows)) ∧
    (p.opSel = 7#4 → decodePort p = .ok .clear) ∧
    (p.opSel = 8#4 → decodePort p = .ok (.setCursorFlags p.underline p.block)) ∧
    (p.opSel = 9#4 → decodePort p = .ok .goHome) ∧
    (p.opSel = 10#4 → decodePort p = .ok (.setCursorPosition p.col p.row)) ∧
    (p.opSel = 11#4 → decodePort p = .ok .cursorForward) ∧
    (p.opSel = 12#4 → decodePort p = .ok .cursorBack) ∧
    (p.opSel = 13#4 → decodePort p = .ok (.createChar p.slot p.glyph)) ∧
    (p.opSel = 14#4 → ∃ i, decodePort p = .ok i ∧ encode i = some p.raw) ∧
    (p.opSel = 15#4 → decodePort p = .error .reservedOpSel)

/-- 30_encoding.md rules R60, R61: a framed operation's burst is one or two whole frames, each 0xFE, an opcode that is not 0xFE, and
that opcode's own number of argument bytes. -/
def Obligations.FramedBurstsAreWholeFrames : Prop :=
  ∀ (i : Instr) (burst : List Byte), i.isFramed = true → encode i = some burst →
    ∃ frames : List (Opcode × List Byte), frames ≠ [] ∧ frames.length ≤ 2 ∧
      burst = frames.flatMap (fun f => 0xFE#8 :: f.1.byte :: f.2) ∧
      ∀ f ∈ frames, f.1.byte ≠ 0xFE#8 ∧ f.1.argCount = some f.2.length ∧ f.1.wireOnly = false

/-- Rules R71, R72 (the spec's own inference from R68): a reader of the stream that stands outside a frame finds a framed operation's frames, and then stands outside a
frame again. -/
def Obligations.ReaderFindsFrames : Prop :=
  ∀ (i : Instr) (burst rest : List Byte), i.isFramed = true → encode i = some burst →
    ReaderState.text.read (burst ++ rest) =
      (framesOf i ++ (ReaderState.text.read rest).1, (ReaderState.text.read rest).2)

/-- Rules R72, R183 (the spec's own inference): bursts do not mark frame boundaries.  A framed operation's burst, cut anywhere and sent as
two RAWs, adds to the stream what a reader takes as that operation's frames, and after which it stands outside a frame again; the
second RAW completes what the first left open.  For the sole writer, under the sink contract (D5, log 11) and with both statuses
`OK`, that is what the device receives.
Received means passed on by the sink (the model's choice, log 32). -/
def Obligations.BurstsDoNotMarkFrames : Prop :=
  ∀ (i : Instr) (xs ys : List Byte) (s t u : State), i.isFramed = true → encode i = some (xs ++ ys) →
    exec (.raw xs) s = .next t → exec (.raw ys) t = .next u →
      ∃ gained, streamOf u.trace = streamOf s.trace ++ gained ∧
        ReaderState.text.read gained = (framesOf i, .text) ∧
        (ReaderState.text.read xs).1 ++ ((ReaderState.text.read xs).2.read ys).1 = framesOf i ∧
        ((ReaderState.text.read xs).2.read ys).2 = .text ∧
        (s.soleWriter → u.sink.shortWrite = false → t.rsp = some .ok → u.rsp = some .ok →
          u.sink.received = s.sink.received ++ gained)

/-- 70_reset_and_hazards.md rule R240 (the spec's own inference): whatever bytes a reader has had, the frame it stands in takes at most nine more. -/
def Obligations.BrokenFrameTakesAtMostNine : Prop :=
  ∀ (bytes : List Byte) (n : Nat), (ReaderState.text.read bytes).2.missing = some n → n ≤ 9

/-- 30_encoding.md rule R69 (the spec's own inference): no framed operation emits an opcode the spec does not list, or one of the three wire-only opcodes. -/
def Obligations.OtherOpcodesOnlyThroughRaw : Prop :=
  ∀ (i : Instr) (a b : Byte) (rest : List Byte), encode i = some (a :: b :: rest) →
    (Opcode.ofByte b = none ∨ ∃ o, Opcode.ofByte b = some o ∧ o.wireOnly = true) → i.isRawKind = true

/-- 43_raw.md rule R183 (the spec's own inference): RAW of an operation's burst does exactly what the operation does. -/
def Obligations.RawOfBurstIsTheOperation : Prop :=
  ∀ (i : Instr) (burst : List Byte) (s : State), encode i = some burst → exec (.raw burst) s = exec i s

/-- 30_encoding.md rule R77 (the spec's own, D27): the pseudo-operations are what they stand for. -/
def Obligations.PseudoOperationsAreTheirExpansions : Prop :=
  (∀ text : List Byte, pseudoPrint text = .raw text) ∧
  (∀ k : Fin 8, encode (pseudoPutCustom k) = some [BitVec.ofNat 8 k.val]) ∧
  (∀ (text : List Byte) (s : State), exec (.setSplash text) s = exec (.raw ([0xFE#8, 0x40#8] ++ text)) s) ∧
  (∀ (bank : Byte) (s : State), exec (.saveChars bank) s = exec (.raw [0xFE#8, 0xC1#8, bank]) s) ∧
  (∀ (bank : Byte) (s : State), exec (.loadChars bank) s = exec (.raw [0xFE#8, 0xC0#8, bank]) s)

/-! ## The packer -/

/-- 42_glyph.md rule R152 (the codes are from general knowledge, G1; log 17): the off markers are the space and the period, and nothing
else. -/
def Obligations.OnlySpaceAndPeriodAreOff : Prop :=
  ∀ c : CharCode, isOn c = false ↔ c = 0x20 ∨ c = 0x2E

/-- Rule R157 (the spec's own inference from R151, R153): a row's byte in closed form, as a sum and bit by bit. -/
def Obligations.PackedRowClosedForm : Prop :=
  ∀ row : Row,
    (packRow row).toNat =
        (∑ j ∈ Finset.range row.length, markAt row j * 2 ^ (row.length - 1 - j)) % 256 ∧
    ∀ j, j < 8 →
      (packRow row).getLsbD j = if j < row.length then (rowMarks row)[row.length - 1 - j]?.getD false else false

/-- Rules R154, R156, R160 (in part the spec's own inference): a glyph byte depends on its own row's on/off classes and on nothing else. -/
def Obligations.MarksDecideGlyphByte : Prop :=
  ∀ (p q : Pattern) (k : Fin 8), rowMarks (p.get k) = rowMarks (q.get k) → (pack p).get k = (pack q).get k

/-- Rule R155 (the spec's own choice, D12 and 90_conflicts.md C2): of a longer row only the last eight characters count. -/
def Obligations.LastEightCharactersCount : Prop :=
  ∀ before last : Row, last.length = 8 → packRow (before ++ last) = packRow last

/-- Rule R159 (the spec's own inference): for patterns five characters wide the packer is a bijection between on/off patterns and glyphs with bits 7 to 5
clear. -/
def Obligations.FiveWidePatternsAreGlyphs : Prop :=
  (∀ p : Pattern, p.fiveWide → ∀ k, (pack p).get k ≤ 0x1F#8) ∧
  (∀ p q : Pattern, p.fiveWide → q.fiveWide → pack p = pack q → ∀ k, rowMarks (p.get k) = rowMarks (q.get k)) ∧
  (∀ g : Glyph, (∀ k, g.get k ≤ 0x1F#8) → ∃ p : Pattern, p.fiveWide ∧ pack p = g) ∧
  (∀ p : Pattern, p.fiveWide → (∀ k, ∀ c ∈ p.get k, isOn c = false) → pack p = Octet.fill 0x00#8) ∧
  (∀ p : Pattern, p.fiveWide → (∀ k, ∀ c ∈ p.get k, isOn c = true) → pack p = Octet.fill 0x1F#8)

/-- Rule R158 and 30_encoding.md rule R77 (the spec's own, D27): DEFINE_CHAR sends exactly the eight packed bytes, in index order.  That it is one
request and leaves the packer's port alone is the model's choice (log 30). -/
def Obligations.DefineCharSendsPackedBytes : Prop :=
  ∀ (slot : Byte) (rows : Pattern) (s : State), s.sink.link ≠ .hung →
    exec (pseudoDefineChar slot rows) s =
      .next (s.afterWrite ([0xFE#8, 0x4E#8, slot] ++ (rows.toList.map packRow)) s.sink.nextAnswer)

/-! ## Invariants -/

/-- Every step keeps the books in agreement (10_state.md rules R12, R13, R21): from any state where the trace has no more pairs than
requests executed and a pending status is the last pair's. -/
def Obligations.StepKeepsConsistency : Prop :=
  ∀ s t : State, s.Consistent → step s = .next t → t.Consistent

/-- Every step keeps delivery (rules R21, R33, R36, R37): for the sole writer, while the sink has kept its contract (`Delivered` carries
it as a premise, D5, log 11) and every status of the trace is `OK`, the device has received the trace's stream, whole and in
order.
Received means passed on by the sink (the model's choice, log 32). -/
def Obligations.StepKeepsDelivery : Prop :=
  ∀ s t : State, s.Delivered → s.soleWriter → step s = .next t → t.Delivered ∧ t.soleWriter

/-- 20_memory.md rule R35 (the spec's own choice, D24), 10_state.md rule R18, 70_reset_and_hazards.md rule R235: no step opens, closes or
reopens the handle.  The other two clauses are the model's choices: that no step changes the implementation's parameters (log 18),
and that no step takes back a byte the device has received, also after the sink contract was broken, when U14 calls the device's
stream any value (log 11); received means passed on by the sink (log 32). -/
def Obligations.StepNeverTouchesTheHandle : Prop :=
  ∀ s t : State, step s = .next t →
    t.sink.link = s.sink.link ∧ t.cfg = s.cfg ∧ s.sink.received <+: t.sink.received
end

