-- ==== Sys2Proof/Laws/Codec.lean ====
section
/-!
SUPPORT. Small lemmas of the opcode map, the decoders and the reader of a stream.
-/

namespace Sys2Proof

/-- An opcode byte is read as its opcode. -/
@[simp] theorem Opcode.ofByte_byte (o : Opcode) : Opcode.ofByte o.byte = some o := by
  cases o <;> rfl

/-- Only an opcode's own byte is read as it. -/
theorem Opcode.byte_of_ofByte {b : Byte} {o : Opcode} (h : Opcode.ofByte b = some o) : o.byte = b := by
  have := List.find?_some h
  simpa using this

/-- A well-formed frame head reads its arguments. -/
theorem decodeWire_frame (o : Opcode) (args : List Byte) :
    decodeWire (commandPrefix :: o.byte :: args) = decodeArgs o args := by
  simp [decodeWire]

/-! ## What the argument readers accept -/

theorem argsNone_ok {i j : Instr} {args : List Byte} (h : argsNone i args = .ok j) : args = [] ∧ j = i := by
  cases args <;> simp_all [argsNone]

theorem argsOne_ok {f : Byte → Instr} {args : List Byte} {j : Instr} (h : argsOne f args = .ok j) :
    ∃ a, args = [a] ∧ j = f a := by
  unfold argsOne at h
  split at h <;> simp_all

theorem argsTwo_ok {f : Byte → Byte → Instr} {args : List Byte} {j : Instr} (h : argsTwo f args = .ok j) :
    ∃ a b, args = [a, b] ∧ j = f a b := by
  unfold argsTwo at h
  split at h <;> simp_all

theorem argsThree_ok {f : Byte → Byte → Byte → Instr} {args : List Byte} {j : Instr}
    (h : argsThree f args = .ok j) : ∃ a b c, args = [a, b, c] ∧ j = f a b c := by
  unfold argsThree at h
  split at h <;> simp_all

theorem argsGlyph_ok {args : List Byte} {j : Instr} (h : argsGlyph args = .ok j) :
    ∃ slot g, args = slot :: Octet.toList g ∧ j = .createChar slot g := by
  unfold argsGlyph at h
  split at h
  · rename_i slot g0 g1 g2 g3 g4 g5 g6 g7
    exact ⟨slot, ⟨g0, g1, g2, g3, g4, g5, g6, g7⟩, rfl, by simpa using h.symm⟩
  · cases h

theorem argsDummy_ok {args : List Byte} {j : Instr} (h : argsDummy args = .ok j) :
    args = [0#8] ∧ j = .backlightOn := by
  unfold argsDummy at h
  split at h
  · split at h <;> simp_all
  · cases h

theorem argsBlockFrame_ok {u : UnderlineCursor} {args : List Byte} {j : Instr} (h : argsBlockFrame u args = .ok j) :
    ∃ k : BlockCursor, args = [commandPrefix, k.opcode.byte] ∧ j = .setCursorFlags u k := by
  unfold argsBlockFrame at h
  split at h
  · split at h
    · split at h
      · exact ⟨.on, by simp_all⟩
      · split at h
        · exact ⟨.off, by simp_all⟩
        · cases h
    · cases h
  · cases h

/-- What the argument reader accepts is the burst of the operation it names. -/
theorem encode_of_decodeArgs {o : Opcode} {args : List Byte} {i : Instr} (h : decodeArgs o args = .ok i) :
    encode i = some (commandPrefix :: o.byte :: args) := by
  cases o <;> simp only [decodeArgs] at h
  case setSplash => cases h; rfl
  case blockOn => cases h
  case blockOff => cases h
  case underlineOn => obtain ⟨k, rfl, rfl⟩ := argsBlockFrame_ok h; cases k <;> rfl
  case underlineOff => obtain ⟨k, rfl, rfl⟩ := argsBlockFrame_ok h; cases k <;> rfl
  case backlightOn => obtain ⟨rfl, rfl⟩ := argsDummy_ok h; rfl
  case createChar => obtain ⟨slot, g, rfl, rfl⟩ := argsGlyph_ok h; rfl
  case setRgb => obtain ⟨a, b, c, rfl, rfl⟩ := argsThree_ok h; rfl
  all_goals first
    | (obtain ⟨rfl, rfl⟩ := argsNone_ok h; rfl)
    | (obtain ⟨a, rfl, rfl⟩ := argsOne_ok h; rfl)
    | (obtain ⟨a, b, rfl, rfl⟩ := argsTwo_ok h; rfl)

/-- What the burst decoder accepts is the burst of the operation it names. -/
theorem encode_of_decodeWire {bytes : List Byte} {i : Instr} (h : decodeWire bytes = .ok i) :
    encode i = some bytes := by
  unfold decodeWire at h
  split at h
  · rename_i p b args
    split at h
    · rename_i hp
      split at h
      · rename_i o ho
        rw [encode_of_decodeArgs h, Opcode.byte_of_ofByte ho, hp]
      · cases h
    · cases h
  · cases h

/-- A payload that is not spelled like a pseudo-operation is read as RAW. -/
theorem decodeRaw_canonical {payload : List Byte} (h : wireOnlySpelling payload = false) :
    decodeRaw payload = .raw payload := by
  unfold decodeRaw
  split
  all_goals first
    | rfl
    | (rename_i hw
       have he := encode_of_decodeWire hw
       simp only [encode, Option.some.injEq] at he
       subst he
       simp [wireOnlySpelling] at h)

/-- Reading one byte and then the rest. -/
theorem ReaderState.read_cons (r : ReaderState) (b : Byte) (rest : List Byte) :
    r.read (b :: rest) = ((r.feed b).1 ++ ((r.feed b).2.read rest).1, ((r.feed b).2.read rest).2) := rfl

/-- A reader does not see where one byte sequence ends and the next begins (rule R72). -/
theorem ReaderState.read_append (r : ReaderState) (xs ys : List Byte) :
    r.read (xs ++ ys) = ((r.read xs).1 ++ ((r.read xs).2.read ys).1, ((r.read xs).2.read ys).2) := by
  induction xs generalizing r with
  | nil => rfl
  | cons b xs ih => simp [ReaderState.read_cons, ih]

@[simp] theorem ReaderState.read_nil (r : ReaderState) : r.read [] = ([], r) := rfl

end Sys2Proof
end

