-- ==== Sys2Proof/Laws/State.lean ====
section
/-!
SUPPORT. One lemma per field per update of the state, each true by unfolding: later proofs use these and unfold no update.
-/

namespace Sys2Proof.Machine

/-! ## `sinkWrite` -/

@[simp] theorem State.sinkWrite_cfg (s : State) (burst : List Byte) (a : SinkAnswer) :
    (s.sinkWrite burst a).cfg = s.cfg := rfl

@[simp] theorem State.sinkWrite_req (s : State) (burst : List Byte) (a : SinkAnswer) :
    (s.sinkWrite burst a).req = s.req := rfl

@[simp] theorem State.sinkWrite_pkRows (s : State) (burst : List Byte) (a : SinkAnswer) :
    (s.sinkWrite burst a).pkRows = s.pkRows := rfl

@[simp] theorem State.sinkWrite_glyphOut (s : State) (burst : List Byte) (a : SinkAnswer) :
    (s.sinkWrite burst a).glyphOut = s.glyphOut := rfl

@[simp] theorem State.sinkWrite_rsp (s : State) (burst : List Byte) (a : SinkAnswer) :
    (s.sinkWrite burst a).rsp = s.rsp := rfl

@[simp] theorem State.sinkWrite_pending (s : State) (burst : List Byte) (a : SinkAnswer) :
    (s.sinkWrite burst a).pending = s.pending := rfl

@[simp] theorem State.sinkWrite_index (s : State) (burst : List Byte) (a : SinkAnswer) :
    (s.sinkWrite burst a).index = s.index := rfl

@[simp] theorem State.sinkWrite_trace (s : State) (burst : List Byte) (a : SinkAnswer) :
    (s.sinkWrite burst a).trace = s.trace := rfl

@[simp] theorem State.sinkWrite_sink (s : State) (burst : List Byte) (a : SinkAnswer) :
    (s.sinkWrite burst a).sink = s.sink.write burst a := rfl

@[simp] theorem State.sinkWrite_line (s : State) (burst : List Byte) (a : SinkAnswer) :
    (s.sinkWrite burst a).line = s.line := rfl

/-! ## `sinkCutOff` -/

@[simp] theorem State.sinkCutOff_cfg (s : State) (burst : List Byte) (a : SinkAnswer) :
    (s.sinkCutOff burst a).cfg = s.cfg := rfl

@[simp] theorem State.sinkCutOff_req (s : State) (burst : List Byte) (a : SinkAnswer) :
    (s.sinkCutOff burst a).req = s.req := rfl

@[simp] theorem State.sinkCutOff_pkRows (s : State) (burst : List Byte) (a : SinkAnswer) :
    (s.sinkCutOff burst a).pkRows = s.pkRows := rfl

@[simp] theorem State.sinkCutOff_glyphOut (s : State) (burst : List Byte) (a : SinkAnswer) :
    (s.sinkCutOff burst a).glyphOut = s.glyphOut := rfl

@[simp] theorem State.sinkCutOff_rsp (s : State) (burst : List Byte) (a : SinkAnswer) :
    (s.sinkCutOff burst a).rsp = s.rsp := rfl

@[simp] theorem State.sinkCutOff_pending (s : State) (burst : List Byte) (a : SinkAnswer) :
    (s.sinkCutOff burst a).pending = s.pending := rfl

@[simp] theorem State.sinkCutOff_index (s : State) (burst : List Byte) (a : SinkAnswer) :
    (s.sinkCutOff burst a).index = s.index := rfl

@[simp] theorem State.sinkCutOff_trace (s : State) (burst : List Byte) (a : SinkAnswer) :
    (s.sinkCutOff burst a).trace = s.trace := rfl

@[simp] theorem State.sinkCutOff_sink (s : State) (burst : List Byte) (a : SinkAnswer) :
    (s.sinkCutOff burst a).sink = s.sink.writeCutOff burst a := rfl

@[simp] theorem State.sinkCutOff_line (s : State) (burst : List Byte) (a : SinkAnswer) :
    (s.sinkCutOff burst a).line = s.line := rfl

/-! ## `report` -/

@[simp] theorem State.report_cfg (s : State) (burst : List Byte) (st : Status) :
    (s.report burst st).cfg = s.cfg := rfl

@[simp] theorem State.report_req (s : State) (burst : List Byte) (st : Status) :
    (s.report burst st).req = s.req := rfl

@[simp] theorem State.report_pkRows (s : State) (burst : List Byte) (st : Status) :
    (s.report burst st).pkRows = s.pkRows := rfl

@[simp] theorem State.report_glyphOut (s : State) (burst : List Byte) (st : Status) :
    (s.report burst st).glyphOut = s.glyphOut := rfl

@[simp] theorem State.report_rsp (s : State) (burst : List Byte) (st : Status) :
    (s.report burst st).rsp = some st := rfl

@[simp] theorem State.report_pending (s : State) (burst : List Byte) (st : Status) :
    (s.report burst st).pending = s.pending := rfl

@[simp] theorem State.report_index (s : State) (burst : List Byte) (st : Status) :
    (s.report burst st).index = s.index := rfl

@[simp] theorem State.report_trace (s : State) (burst : List Byte) (st : Status) :
    (s.report burst st).trace = s.trace ++ [{ burst := burst, status := st }] := rfl

@[simp] theorem State.report_sink (s : State) (burst : List Byte) (st : Status) :
    (s.report burst st).sink = s.sink := rfl

@[simp] theorem State.report_line (s : State) (burst : List Byte) (st : Status) :
    (s.report burst st).line = s.line := rfl

/-! ## `afterWrite` -/

@[simp] theorem State.afterWrite_cfg (s : State) (burst : List Byte) (a : SinkAnswer) :
    (s.afterWrite burst a).cfg = s.cfg := rfl

@[simp] theorem State.afterWrite_req (s : State) (burst : List Byte) (a : SinkAnswer) :
    (s.afterWrite burst a).req = s.req := rfl

@[simp] theorem State.afterWrite_pkRows (s : State) (burst : List Byte) (a : SinkAnswer) :
    (s.afterWrite burst a).pkRows = s.pkRows := rfl

@[simp] theorem State.afterWrite_glyphOut (s : State) (burst : List Byte) (a : SinkAnswer) :
    (s.afterWrite burst a).glyphOut = s.glyphOut := rfl

@[simp] theorem State.afterWrite_rsp (s : State) (burst : List Byte) (a : SinkAnswer) :
    (s.afterWrite burst a).rsp = some (statusOf a) := rfl

@[simp] theorem State.afterWrite_pending (s : State) (burst : List Byte) (a : SinkAnswer) :
    (s.afterWrite burst a).pending = s.pending := rfl

@[simp] theorem State.afterWrite_index (s : State) (burst : List Byte) (a : SinkAnswer) :
    (s.afterWrite burst a).index = s.index := rfl

@[simp] theorem State.afterWrite_trace (s : State) (burst : List Byte) (a : SinkAnswer) :
    (s.afterWrite burst a).trace = s.trace ++ [{ burst := burst, status := statusOf a }] := rfl

@[simp] theorem State.afterWrite_sink (s : State) (burst : List Byte) (a : SinkAnswer) :
    (s.afterWrite burst a).sink = s.sink.write burst a := rfl

@[simp] theorem State.afterWrite_line (s : State) (burst : List Byte) (a : SinkAnswer) :
    (s.afterWrite burst a).line = s.line := rfl

/-! ## `returnGlyph` -/

@[simp] theorem State.returnGlyph_cfg (s : State) (g : Glyph) :
    (s.returnGlyph g).cfg = s.cfg := rfl

@[simp] theorem State.returnGlyph_req (s : State) (g : Glyph) :
    (s.returnGlyph g).req = s.req := rfl

@[simp] theorem State.returnGlyph_pkRows (s : State) (g : Glyph) :
    (s.returnGlyph g).pkRows = s.pkRows := rfl

@[simp] theorem State.returnGlyph_glyphOut (s : State) (g : Glyph) :
    (s.returnGlyph g).glyphOut = g := rfl

@[simp] theorem State.returnGlyph_rsp (s : State) (g : Glyph) :
    (s.returnGlyph g).rsp = s.rsp := rfl

@[simp] theorem State.returnGlyph_pending (s : State) (g : Glyph) :
    (s.returnGlyph g).pending = s.pending := rfl

@[simp] theorem State.returnGlyph_index (s : State) (g : Glyph) :
    (s.returnGlyph g).index = s.index := rfl

@[simp] theorem State.returnGlyph_trace (s : State) (g : Glyph) :
    (s.returnGlyph g).trace = s.trace := rfl

@[simp] theorem State.returnGlyph_sink (s : State) (g : Glyph) :
    (s.returnGlyph g).sink = s.sink := rfl

@[simp] theorem State.returnGlyph_line (s : State) (g : Glyph) :
    (s.returnGlyph g).line = s.line := rfl

/-! ## `accept_req` -/

@[simp] theorem State.accept_req_cfg (s : State) (q : ReqPort) :
    (s.accept (.req q)).cfg = s.cfg := rfl

@[simp] theorem State.accept_req_req (s : State) (q : ReqPort) :
    (s.accept (.req q)).req = q := rfl

@[simp] theorem State.accept_req_pkRows (s : State) (q : ReqPort) :
    (s.accept (.req q)).pkRows = s.pkRows := rfl

@[simp] theorem State.accept_req_glyphOut (s : State) (q : ReqPort) :
    (s.accept (.req q)).glyphOut = s.glyphOut := rfl

@[simp] theorem State.accept_req_rsp (s : State) (q : ReqPort) :
    (s.accept (.req q)).rsp = none := rfl

@[simp] theorem State.accept_req_pending (s : State) (q : ReqPort) :
    (s.accept (.req q)).pending = s.pending.tail := rfl

@[simp] theorem State.accept_req_index (s : State) (q : ReqPort) :
    (s.accept (.req q)).index = s.index := rfl

@[simp] theorem State.accept_req_trace (s : State) (q : ReqPort) :
    (s.accept (.req q)).trace = s.trace := rfl

@[simp] theorem State.accept_req_sink (s : State) (q : ReqPort) :
    (s.accept (.req q)).sink = s.sink := rfl

@[simp] theorem State.accept_req_line (s : State) (q : ReqPort) :
    (s.accept (.req q)).line = s.line := rfl

/-! ## `accept_pk` -/

@[simp] theorem State.accept_pk_cfg (s : State) (rows : Pattern) :
    (s.accept (.pk rows)).cfg = s.cfg := rfl

@[simp] theorem State.accept_pk_req (s : State) (rows : Pattern) :
    (s.accept (.pk rows)).req = s.req := rfl

@[simp] theorem State.accept_pk_pkRows (s : State) (rows : Pattern) :
    (s.accept (.pk rows)).pkRows = rows := rfl

@[simp] theorem State.accept_pk_glyphOut (s : State) (rows : Pattern) :
    (s.accept (.pk rows)).glyphOut = s.glyphOut := rfl

@[simp] theorem State.accept_pk_rsp (s : State) (rows : Pattern) :
    (s.accept (.pk rows)).rsp = s.rsp := rfl

@[simp] theorem State.accept_pk_pending (s : State) (rows : Pattern) :
    (s.accept (.pk rows)).pending = s.pending.tail := rfl

@[simp] theorem State.accept_pk_index (s : State) (rows : Pattern) :
    (s.accept (.pk rows)).index = s.index := rfl

@[simp] theorem State.accept_pk_trace (s : State) (rows : Pattern) :
    (s.accept (.pk rows)).trace = s.trace := rfl

@[simp] theorem State.accept_pk_sink (s : State) (rows : Pattern) :
    (s.accept (.pk rows)).sink = s.sink := rfl

@[simp] theorem State.accept_pk_line (s : State) (rows : Pattern) :
    (s.accept (.pk rows)).line = s.line := rfl

/-! ## `advance` -/

@[simp] theorem State.advance_cfg (s : State) :
    (s.advance).cfg = s.cfg := rfl

@[simp] theorem State.advance_req (s : State) :
    (s.advance).req = s.req := rfl

@[simp] theorem State.advance_pkRows (s : State) :
    (s.advance).pkRows = s.pkRows := rfl

@[simp] theorem State.advance_glyphOut (s : State) :
    (s.advance).glyphOut = s.glyphOut := rfl

@[simp] theorem State.advance_rsp (s : State) :
    (s.advance).rsp = s.rsp := rfl

@[simp] theorem State.advance_pending (s : State) :
    (s.advance).pending = s.pending := rfl

@[simp] theorem State.advance_index (s : State) :
    (s.advance).index = s.index + 1 := rfl

@[simp] theorem State.advance_trace (s : State) :
    (s.advance).trace = s.trace := rfl

@[simp] theorem State.advance_sink (s : State) :
    (s.advance).sink = s.sink := rfl

@[simp] theorem State.advance_line (s : State) :
    (s.advance).line = s.line := rfl

/-! ## `applyReset` -/

@[simp] theorem State.applyReset_cfg (s : State) :
    (s.applyReset).cfg = s.cfg := rfl

@[simp] theorem State.applyReset_req (s : State) :
    (s.applyReset).req = s.req := rfl

@[simp] theorem State.applyReset_pkRows (s : State) :
    (s.applyReset).pkRows = s.pkRows := rfl

@[simp] theorem State.applyReset_glyphOut (s : State) :
    (s.applyReset).glyphOut = s.glyphOut := rfl

@[simp] theorem State.applyReset_rsp (s : State) :
    (s.applyReset).rsp = none := rfl

@[simp] theorem State.applyReset_pending (s : State) :
    (s.applyReset).pending = s.pending := rfl

@[simp] theorem State.applyReset_index (s : State) :
    (s.applyReset).index = 0 := rfl

@[simp] theorem State.applyReset_trace (s : State) :
    (s.applyReset).trace = [] := rfl

@[simp] theorem State.applyReset_sink (s : State) :
    (s.applyReset).sink = s.sink := rfl

@[simp] theorem State.applyReset_line (s : State) :
    (s.applyReset).line = .idle := rfl

/-! ## `placeNext` -/

@[simp] theorem State.placeNext_cfg (s : State) (p : Presentation) :
    (s.placeNext p).cfg = s.cfg := rfl

@[simp] theorem State.placeNext_req (s : State) (p : Presentation) :
    (s.placeNext p).req = s.req := rfl

@[simp] theorem State.placeNext_pkRows (s : State) (p : Presentation) :
    (s.placeNext p).pkRows = s.pkRows := rfl

@[simp] theorem State.placeNext_glyphOut (s : State) (p : Presentation) :
    (s.placeNext p).glyphOut = s.glyphOut := rfl

@[simp] theorem State.placeNext_rsp (s : State) (p : Presentation) :
    (s.placeNext p).rsp = s.rsp := rfl

@[simp] theorem State.placeNext_pending (s : State) (p : Presentation) :
    (s.placeNext p).pending = p :: s.pending.tail := rfl

@[simp] theorem State.placeNext_index (s : State) (p : Presentation) :
    (s.placeNext p).index = s.index := rfl

@[simp] theorem State.placeNext_trace (s : State) (p : Presentation) :
    (s.placeNext p).trace = s.trace := rfl

@[simp] theorem State.placeNext_sink (s : State) (p : Presentation) :
    (s.placeNext p).sink = s.sink := rfl

@[simp] theorem State.placeNext_line (s : State) (p : Presentation) :
    (s.placeNext p).line = .idle := rfl

/-! ## The sink's write -/

@[simp] theorem Sink.deliver_link (k : Sink) (bytes : List Byte) (a : SinkAnswer) :
    (k.deliver bytes a).link = k.link := rfl

@[simp] theorem Sink.deliver_answers (k : Sink) (bytes : List Byte) (a : SinkAnswer) :
    (k.deliver bytes a).answers = k.answers.tail := rfl

@[simp] theorem Sink.deliver_draws (k : Sink) (bytes : List Byte) (a : SinkAnswer) :
    (k.deliver bytes a).draws = k.draws + 1 := rfl

@[simp] theorem Sink.deliver_received (k : Sink) (bytes : List Byte) (a : SinkAnswer) :
    (k.deliver bytes a).received = k.received ++ (interleave a.mix bytes k.other).1 := rfl

@[simp] theorem Sink.deliver_shortWrite (k : Sink) (bytes : List Byte) (a : SinkAnswer) :
    (k.deliver bytes a).shortWrite = k.shortWrite := rfl

@[simp] theorem Sink.deliver_other (k : Sink) (bytes : List Byte) (a : SinkAnswer) :
    (k.deliver bytes a).other = (interleave a.mix bytes k.other).2 := rfl

@[simp] theorem Sink.write_link (k : Sink) (burst : List Byte) (a : SinkAnswer) :
    (k.write burst a).link = k.link := rfl

@[simp] theorem Sink.write_answers (k : Sink) (burst : List Byte) (a : SinkAnswer) :
    (k.write burst a).answers = k.answers.tail := rfl

@[simp] theorem Sink.write_draws (k : Sink) (burst : List Byte) (a : SinkAnswer) :
    (k.write burst a).draws = k.draws + 1 := rfl

@[simp] theorem Sink.write_received (k : Sink) (burst : List Byte) (a : SinkAnswer) :
    (k.write burst a).received = k.received ++ (interleave a.mix (k.passed burst a) k.other).1 := rfl

@[simp] theorem Sink.write_shortWrite (k : Sink) (burst : List Byte) (a : SinkAnswer) :
    (k.write burst a).shortWrite = (k.shortWrite || shortAnswer a burst) := rfl

@[simp] theorem Sink.write_other (k : Sink) (burst : List Byte) (a : SinkAnswer) :
    (k.write burst a).other = (interleave a.mix (k.passed burst a) k.other).2 := rfl

@[simp] theorem Sink.writeCutOff_link (k : Sink) (burst : List Byte) (a : SinkAnswer) :
    (k.writeCutOff burst a).link = k.link := rfl

@[simp] theorem Sink.writeCutOff_answers (k : Sink) (burst : List Byte) (a : SinkAnswer) :
    (k.writeCutOff burst a).answers = k.answers.tail := rfl

@[simp] theorem Sink.writeCutOff_draws (k : Sink) (burst : List Byte) (a : SinkAnswer) :
    (k.writeCutOff burst a).draws = k.draws + 1 := rfl

@[simp] theorem Sink.writeCutOff_received (k : Sink) (burst : List Byte) (a : SinkAnswer) :
    (k.writeCutOff burst a).received = k.received ++ (interleave a.mix (k.firstPart burst a) k.other).1 := rfl

@[simp] theorem Sink.writeCutOff_shortWrite (k : Sink) (burst : List Byte) (a : SinkAnswer) :
    (k.writeCutOff burst a).shortWrite = k.shortWrite := rfl

@[simp] theorem Sink.writeCutOff_other (k : Sink) (burst : List Byte) (a : SinkAnswer) :
    (k.writeCutOff burst a).other = (interleave a.mix (k.firstPart burst a) k.other).2 := rfl

end Sys2Proof.Machine
end

