-- ==== Sys2Proof/Laws/Ops.lean ====
section
/-!
SUPPORT. One lemma per shared operation that says everything it can do, and the small lemmas of the sink, the merge and the packer.
Proofs cite these and do not unfold the operations.
-/

namespace Sys2Proof.Machine

/-! ## The sink -/

@[simp] theorem statusOf_none {a : SinkAnswer} (h : a.failure = none) : statusOf a = .ok := by
  simp [statusOf, h]

@[simp] theorem statusOf_some {a : SinkAnswer} {e : Err} (h : a.failure = some e) : statusOf a = .fail e := by
  simp [statusOf, h]

/-- The next answer while the handle is open and the environment has settled one. -/
theorem Sink.nextAnswer_settled {k : Sink} {a : SinkAnswer} {rest : List SinkAnswer}
    (hl : k.link = .opened) (ha : k.answers = a :: rest) : k.nextAnswer = a := by
  simp [Sink.nextAnswer, hl, ha]

/-- Without another writer's bytes there is one interleaving. -/
theorem Interleaving.ofLeft (bytes : List Byte) : Interleaving bytes [] bytes := by
  induction bytes with
  | nil => exact .nil
  | cons b bs ih => exact .left b ih

/-- With no other writer the merge is the burst's own bytes, whatever the drawn order. -/
@[simp] theorem interleave_alone (mix : List Bool) (bytes : List Byte) : interleave mix bytes [] = (bytes, []) := by
  induction mix generalizing bytes with
  | nil => simp [interleave]
  | cons c m ih =>
    cases c with
    | true => simp [interleave, ih]
    | false => cases bytes <;> simp [interleave, ih]

/-- What the merge delivers is an order-keeping interleaving of the bytes with a first part of the other writer's. -/
theorem interleave_spec (mix : List Bool) (bytes other : List Byte) :
    ∃ gone, other = gone ++ (interleave mix bytes other).2 ∧ Interleaving bytes gone (interleave mix bytes other).1 := by
  induction mix generalizing bytes other with
  | nil => exact ⟨[], rfl, .ofLeft bytes⟩
  | cons c m ih =>
    cases c with
    | true =>
      cases other with
      | nil => simpa [interleave] using ih bytes []
      | cons o os =>
        obtain ⟨gone, hgone, hmerge⟩ := ih bytes os
        exact ⟨o :: gone, congrArg (o :: ·) hgone, .right o hmerge⟩
    | false =>
      cases bytes with
      | nil => simpa [interleave] using ih [] other
      | cons b bs =>
        obtain ⟨gone, hgone, hmerge⟩ := ih bs other
        exact ⟨gone, hgone, .left b hmerge⟩

/-- Every order-keeping interleaving is what the merge delivers under some drawn order, with the rest left over. -/
theorem interleave_complete {bytes gone zs : List Byte} (h : Interleaving bytes gone zs) (rest : List Byte) :
    ∃ mix, interleave mix bytes (gone ++ rest) = (zs, rest) := by
  induction h with
  | nil => exact ⟨[], rfl⟩
  | left b _ ih =>
    obtain ⟨m, hm⟩ := ih
    exact ⟨false :: m, by simp [interleave, hm]⟩
  | right o _ ih =>
    obtain ⟨m, hm⟩ := ih
    exact ⟨true :: m, by simp [interleave, hm]⟩

/-- An answer is short exactly when it breaks the contract for this burst. -/
theorem shortAnswer_eq_false {a : SinkAnswer} {burst : List Byte} : shortAnswer a burst = false ↔ honours a burst := by
  cases h : a.failure <;> simp [shortAnswer, honours, h]

/-- While the contract holds, the sink passes on a first part of the burst. -/
theorem Sink.passed_kept {k : Sink} {burst : List Byte} {a : SinkAnswer} (hk : k.shortWrite = false)
    (ha : shortAnswer a burst = false) : k.passed burst a = burst.take a.taken := by
  simp [Sink.passed, Sink.firstPart, hk, ha]

/-- While the contract holds, an answer without failure passes on the whole burst. -/
theorem Sink.passed_whole {k : Sink} {burst : List Byte} {a : SinkAnswer} (hk : k.shortWrite = false)
    (ha : shortAnswer a burst = false) (hf : a.failure = none) : k.passed burst a = burst := by
  rw [Sink.passed_kept hk ha, List.take_of_length_le (shortAnswer_eq_false.1 ha hf)]

/-- Once the contract is broken, the sink passes on any bytes. -/
theorem Sink.passed_broken {k : Sink} {burst : List Byte} {a : SinkAnswer}
    (h : (k.shortWrite || shortAnswer a burst) = true) : k.passed burst a = a.stray := by
  cases ha : shortAnswer a burst <;> simp_all [Sink.passed, Sink.firstPart]

/-- A write by the sole writer delivers exactly the bytes the sink passes on. -/
theorem Sink.write_received_alone {k : Sink} (burst : List Byte) (a : SinkAnswer) (h : k.other = []) :
    (k.write burst a).received = k.received ++ k.passed burst a := by
  simp [h]

/-! ## The end of an operation -/

/-- Completing a write is exactly `afterWrite`, with either status. -/
theorem State.complete_eq (s : State) (burst : List Byte) (a : SinkAnswer) :
    s.complete burst a = s.afterWrite burst a := rfl

/-- `execBurst` completes whenever the transport's write returns. -/
theorem execBurst_next {s : State} (burst : List Byte) (h : s.sink.link ≠ .hung) :
    execBurst burst s = .next (s.afterWrite burst s.sink.nextAnswer) := by
  cases hl : s.sink.link <;> simp_all [execBurst, State.complete_eq]

/-- `execBurst` stops when the transport's write never returns. -/
theorem execBurst_hung {s : State} (burst : List Byte) (h : s.sink.link = .hung) :
    execBurst burst s = .fault .sinkHang := by
  simp [execBurst, h]

/-- Everything `execBurst` can answer. -/
theorem execBurst_cases (burst : List Byte) (s : State) :
    (s.sink.link ≠ .hung ∧ execBurst burst s = .next (s.afterWrite burst s.sink.nextAnswer)) ∨
      (s.sink.link = .hung ∧ execBurst burst s = .fault .sinkHang) := by
  by_cases h : s.sink.link = .hung
  · exact .inr ⟨h, execBurst_hung burst h⟩
  · exact .inl ⟨h, execBurst_next burst h⟩

/-- If `execBurst` answers a next state, it is this one. -/
theorem execBurst_inv {burst : List Byte} {s t : State} (h : execBurst burst s = .next t) :
    s.sink.link ≠ .hung ∧ t = s.afterWrite burst s.sink.nextAnswer := by
  rcases execBurst_cases burst s with ⟨hl, he⟩ | ⟨_, he⟩
  · rw [he] at h
    exact ⟨hl, by injection h with h; exact h.symm⟩
  · rw [he] at h
    cases h

/-! ## Presenting a request -/

/-- Sampling the port the host has just driven gives the operation the presentation names. -/
@[simp] theorem State.sample_accept (s : State) (p : Presentation) : (s.accept p).sample p = decode p := by
  cases p <;> rfl

/-- When a fetch accepts, the request is the next one, it names the operation, and the operation passes its check. -/
theorem State.fetch_accepted {s : State} {p : Presentation} {i : Instr} (h : s.fetch = .accepted p i) :
    s.pending.head? = some p ∧ decode p = .ok i ∧ i.check s.cfg = none := by
  unfold State.fetch at h
  split at h
  · cases h
  · split at h
    · cases h
    · split at h
      · cases h
      · cases h
        simp_all

/-- A request that names an operation and passes its check is accepted. -/
theorem State.fetch_of_decode {s : State} {p : Presentation} {rest : List Presentation} {i : Instr}
    (hp : s.pending = p :: rest) (hd : decode p = .ok i) (hc : i.check s.cfg = none) : s.fetch = .accepted p i := by
  simp [State.fetch, hp, hd, hc]

/-- Accepting a request leaves the sink, the trace, the index, the parameters and the reset line alone. -/
@[simp] theorem State.accept_sink (s : State) (p : Presentation) : (s.accept p).sink = s.sink := by
  cases p <;> rfl

@[simp] theorem State.accept_trace (s : State) (p : Presentation) : (s.accept p).trace = s.trace := by
  cases p <;> rfl

@[simp] theorem State.accept_index (s : State) (p : Presentation) : (s.accept p).index = s.index := by
  cases p <;> rfl

@[simp] theorem State.accept_cfg (s : State) (p : Presentation) : (s.accept p).cfg = s.cfg := by
  cases p <;> rfl

@[simp] theorem State.accept_line (s : State) (p : Presentation) : (s.accept p).line = s.line := by
  cases p <;> rfl

@[simp] theorem State.accept_pending (s : State) (p : Presentation) : (s.accept p).pending = s.pending.tail := by
  cases p <;> rfl

/-- Under admissible parameters both off markers fit the packer's port. -/
theorem offMarkers_present {c : Config} (h : c.Admissible) : 0x20 < 2 ^ c.charW ∧ 0x2E < 2 ^ c.charW := by
  have h6 : 2 ^ 6 ≤ 2 ^ c.charW := Nat.pow_le_pow_right (by decide) h
  omega

/-! ## The packer -/

@[simp] theorem packRow_nil : packRow [] = 0#8 := rfl

theorem packRow_append_char (row : Row) (c : CharCode) : packRow (row ++ [c]) = packChar (packRow row) c := by
  simp [packRow, List.foldl_append]

@[simp] theorem pack_get (rows : Pattern) (k : Fin 8) : (pack rows).get k = packRow (rows.get k) := by
  fin_cases k <;> rfl

end Sys2Proof.Machine
end

