-- ==== Sys2Proof/Laws/PerInstr.lean ====
section
/-!
SUPPORT. Statements made per operation, one lemma per constructor of Instr.  The family `WireLength` says that a burst has the
length of 20_memory.md rule R48's table.
-/

namespace Sys2Proof.Laws.WireLength

/-- The burst of an operation, where it has one, has the tabled length. -/
def Statement (i : Instr) : Prop :=
  ∀ burst, encode i = some burst → burst.length = i.burstLength

theorem setBgColor (r g b : Byte) : Statement (.setBgColor r g b) := by rintro _ ⟨⟩; rfl

theorem backlightOn : Statement .backlightOn := by rintro _ ⟨⟩; rfl

theorem backlightOff : Statement .backlightOff := by rintro _ ⟨⟩; rfl

theorem setBrightness (bright : Byte) : Statement (.setBrightness bright) := by rintro _ ⟨⟩; rfl

theorem setContrast (contrast : Byte) : Statement (.setContrast contrast) := by rintro _ ⟨⟩; rfl

theorem setAutoscroll (state : Autoscroll) : Statement (.setAutoscroll state) := by
  cases state <;> (rintro _ ⟨⟩; rfl)

theorem setDisplaySize (cols rows : Byte) : Statement (.setDisplaySize cols rows) := by rintro _ ⟨⟩; rfl

theorem clear : Statement .clear := by rintro _ ⟨⟩; rfl

theorem setCursorFlags (underline : UnderlineCursor) (block : BlockCursor) :
    Statement (.setCursorFlags underline block) := by
  cases underline <;> cases block <;> (rintro _ ⟨⟩; rfl)

theorem goHome : Statement .goHome := by rintro _ ⟨⟩; rfl

theorem setCursorPosition (col row : Byte) : Statement (.setCursorPosition col row) := by rintro _ ⟨⟩; rfl

theorem cursorForward : Statement .cursorForward := by rintro _ ⟨⟩; rfl

theorem cursorBack : Statement .cursorBack := by rintro _ ⟨⟩; rfl

theorem createChar (slot : Byte) (glyph : Glyph) : Statement (.createChar slot glyph) := by rintro _ ⟨⟩; rfl

theorem raw (payload : List Byte) : Statement (.raw payload) := by rintro _ ⟨⟩; rfl

theorem packGlyph (rows : Pattern) : Statement (.packGlyph rows) := by rintro _ ⟨⟩

theorem setSplash (text : List Byte) : Statement (.setSplash text) := by rintro _ ⟨⟩; rfl

theorem saveChars (bank : Byte) : Statement (.saveChars bank) := by rintro _ ⟨⟩; rfl

theorem loadChars (bank : Byte) : Statement (.loadChars bank) := by rintro _ ⟨⟩; rfl

end Sys2Proof.Laws.WireLength
end

