-- ==== Sys2Proof/Machine/Assembler.lean ====
section
/-!
DEFINITION. The written form of an operation (30_encoding.md rules R76 to R78): a mnemonic, then its operands separated by commas, a
comment after a semicolon.  It is a host's convenience; nothing of it reaches the wire but the operation it names.
-/

namespace Sys2Proof.Machine

/-- A word of a line. -/
inductive Token where
  | name (cs : List Char)
  | number (n : Nat)
  | quoted (cs : List Char)
  | comma
  | openBrace
  | closeBrace
  | openBracket
  | closeBracket
  deriving DecidableEq, Repr

/-- The value of a decimal digit. -/
def decimalDigit (c : Char) : Option Nat :=
  if 48 ≤ c.toNat ∧ c.toNat ≤ 57 then some (c.toNat - 48) else none

/-- The value of a hexadecimal digit, of either case (DESIGN CHOICE, log 33). -/
def hexDigit (c : Char) : Option Nat :=
  if 48 ≤ c.toNat ∧ c.toNat ≤ 57 then some (c.toNat - 48)
  else if 65 ≤ c.toNat ∧ c.toNat ≤ 70 then some (c.toNat - 55)
  else if 97 ≤ c.toNat ∧ c.toNat ≤ 102 then some (c.toNat - 87)
  else none

/-- Digits in a base, most significant first; `none` if one is no digit of it. -/
def readDigits (digit : Char → Option Nat) (base acc : Nat) (cs : List Char) : Option Nat :=
  match cs with
  | [] => some acc
  | c :: rest =>
    match digit c with
    | some d => readDigits digit base (acc * base + d) rest
    | none => none

/-- A word that stands for itself: a number, decimal or `0x` hexadecimal, when it begins with a digit, else a name.  DESIGN
CHOICE (log 33): leading zeros are allowed, and `0x` is written in lower case. -/
def wordToken (cs : List Char) : Option Token :=
  match cs with
  | '0' :: 'x' :: d :: ds => (readDigits hexDigit 16 0 (d :: ds)).map Token.number
  | c :: rest =>
    match decimalDigit c with
    | some _ => (readDigits decimalDigit 10 0 (c :: rest)).map Token.number
    | none => some (.name (c :: rest))
  | [] => none

/-- The mark a character is outside a quoted string, if it is one. -/
def markToken (c : Char) : Option Token :=
  if c = ',' then some .comma
  else if c.toNat = 123 then some .openBrace
  else if c.toNat = 125 then some .closeBrace
  else if c = '[' then some .openBracket
  else if c = ']' then some .closeBracket
  else none

/-- The tokens of a finished word, before the tokens that follow it. -/
def closeWord (word : List Char) (rest : Option (List Token)) : Option (List Token) :=
  match word with
  | [] => rest
  | c :: cs =>
    match wordToken (c :: cs), rest with
    | some t, some ts => some (t :: ts)
    | _, _ => none

/-- The tokens of a line.  `inside` says whether the reader is inside a quoted string, `word` is what it has read of the current
word or string.  A semicolon outside a string begins a comment, which ends the line.  DESIGN CHOICE (log 33), where rule R76 is silent:
a string ends at the first double quote, with no escape for one; a space or a tab separates words and nothing else does, but for
the marks, which need none beside them; and a quote directly after a word makes the line malformed. -/
def tokens (inside : Bool) (word cs : List Char) : Option (List Token) :=
  match inside, cs with
  | true, [] => none
  | true, c :: rest =>
    if c = '"' then (tokens false [] rest).map (fun ts => Token.quoted word :: ts)
    else tokens true (word ++ [c]) rest
  | false, [] => closeWord word (some [])
  | false, c :: rest =>
    if c = ';' then closeWord word (some [])
    else if c = '"' then
      match word with
      | [] => tokens true [] rest
      | _ :: _ => none
    else if c = ' ' ∨ c = '\t' then closeWord word (tokens false [] rest)
    else
      match markToken c with
      | some t => closeWord word ((tokens false [] rest).map (fun ts => t :: ts))
      | none => tokens false (word ++ [c]) rest

/-- A number operand, 0 to 255. -/
def byteOf (n : Nat) : Option Byte :=
  if n < 256 then some (BitVec.ofNat 8 n) else none

/-- Number operands separated by commas, as bytes. -/
def byteList (ts : List Token) : Option (List Byte) :=
  match ts with
  | [.number n] => (byteOf n).map (fun b => [b])
  | .number n :: .comma :: t :: rest =>
    match byteOf n, byteList (t :: rest) with
    | some b, some bs => some (b :: bs)
    | _, _ => none
  | _ => none

/-- Quoted rows separated by commas, each as its characters' codes.  DESIGN CHOICE (log 31): each `Char` of the written row is one
character, and its code is its Unicode code point, also outside 7-bit ASCII; rule R152 leaves that to the host. -/
def rowList (ts : List Token) : Option (List Row) :=
  match ts with
  | [.quoted cs] => some [cs.map Char.toNat]
  | .quoted cs :: .comma :: t :: rest =>
    match rowList (t :: rest) with
    | some rows => some (cs.map Char.toNat :: rows)
    | none => none
  | _ => none

/-- Exactly eight. -/
def octetOf {α : Type} (xs : List α) : Option (Octet α) :=
  match xs with
  | [e0, e1, e2, e3, e4, e5, e6, e7] => some { e0, e1, e2, e3, e4, e5, e6, e7 }
  | _ => none

/-- What stands before the last token, if the last one is the given one. -/
def dropLastToken (last : Token) (ts : List Token) : Option (List Token) :=
  match ts with
  | [] => none
  | [t] => if t = last then some [] else none
  | t :: u :: rest => (dropLastToken last (u :: rest)).map (fun xs => t :: xs)

/-- A glyph in braces: eight numbers. -/
def glyphOperand (ts : List Token) : Option Glyph :=
  match ts with
  | .openBrace :: rest => ((dropLastToken .closeBrace rest).bind byteList).bind octetOf
  | _ => none

/-- A pattern in braces: eight quoted rows. -/
def patternOperand (ts : List Token) : Option Pattern :=
  match ts with
  | .openBrace :: rest => ((dropLastToken .closeBrace rest).bind rowList).bind octetOf
  | _ => none

/-- A RAW payload: a byte list in brackets, which may be empty, or a quoted string. -/
def payloadOperand (ts : List Token) : Option (List Byte) :=
  match ts with
  | [.quoted cs] => asciiBytes cs
  | [.openBracket, .closeBracket] => some []
  | .openBracket :: rest => (dropLastToken .closeBracket rest).bind byteList
  | _ => none

/-- `ON` or `OFF`. -/
def onOff (cs : List Char) : Option Bool :=
  if cs = ['O', 'N'] then some true else if cs = ['O', 'F', 'F'] then some false else none

/-- An operation with one number operand. -/
def oneByte (f : Byte → Instr) (ts : List Token) : Option Instr :=
  match byteList ts with
  | some [a] => some (f a)
  | _ => none

/-- An operation with two number operands. -/
def twoBytes (f : Byte → Byte → Instr) (ts : List Token) : Option Instr :=
  match byteList ts with
  | some [a, b] => some (f a b)
  | _ => none

/-- An operation with three number operands. -/
def threeBytes (f : Byte → Byte → Byte → Instr) (ts : List Token) : Option Instr :=
  match byteList ts with
  | some [a, b, c] => some (f a b c)
  | _ => none

/-- An operation without operands. -/
def noOperand (i : Instr) (ts : List Token) : Option Instr :=
  match ts with
  | [] => some i
  | _ :: _ => none

/-- SET_AUTOSCROLL's operand. -/
def autoscrollOperand (ts : List Token) : Option Instr :=
  match ts with
  | [.name cs] => (onOff cs).map (fun v => .setAutoscroll (if v then .on else .off))
  | _ => none

/-- SET_CURSOR_FLAGS' operands, both always given (41_cursor.md rule R130). -/
def flagOperands (ts : List Token) : Option Instr :=
  match ts with
  | [.name us, .comma, .name ks] =>
    match onOff us, onOff ks with
    | some u, some k => some (.setCursorFlags (if u then .on else .off) (if k then .on else .off))
    | _, _ => none
  | _ => none

/-- An operation with a slot and a braced operand. -/
def slotAnd {α : Type} (operand : List Token → Option α) (f : Byte → α → Instr) (ts : List Token) : Option Instr :=
  match ts with
  | .number n :: .comma :: rest =>
    match byteOf n, operand rest with
    | some slot, some x => some (f slot x)
    | _, _ => none
  | _ => none

/-- PUT_CUSTOM's operand, 0 to 7 (rule R77). -/
def customOperand (ts : List Token) : Option Instr :=
  match ts with
  | [.number n] => if h : n < 8 then some (pseudoPutCustom ⟨n, h⟩) else none
  | _ => none

/-- A quoted text, as bytes. -/
def textOperand (f : List Byte → Instr) (ts : List Token) : Option Instr :=
  match ts with
  | [.quoted cs] => (asciiBytes cs).map f
  | _ => none

/-- Every mnemonic of rules R76 and R77 with the reader of its operands. -/
def operandReader (mnemonic : String) : Option (List Token → Option Instr) :=
  match mnemonic with
  | "SET_BG_COLOR" => some (threeBytes .setBgColor)
  | "BACKLIGHT_ON" => some (noOperand .backlightOn)
  | "BACKLIGHT_OFF" => some (noOperand .backlightOff)
  | "SET_BRIGHTNESS" => some (oneByte .setBrightness)
  | "SET_CONTRAST" => some (oneByte .setContrast)
  | "SET_AUTOSCROLL" => some autoscrollOperand
  | "SET_DISPLAY_SIZE" => some (twoBytes .setDisplaySize)
  | "CLEAR" => some (noOperand .clear)
  | "SET_CURSOR_FLAGS" => some flagOperands
  | "GO_HOME" => some (noOperand .goHome)
  | "SET_CURSOR_POSITION" => some (twoBytes .setCursorPosition)
  | "CURSOR_FORWARD" => some (noOperand .cursorForward)
  | "CURSOR_BACK" => some (noOperand .cursorBack)
  | "CREATE_CHAR" => some (slotAnd glyphOperand .createChar)
  | "RAW" => some (fun ts => (payloadOperand ts).map Instr.raw)
  | "PACK_GLYPH" => some (fun ts => (patternOperand ts).map Instr.packGlyph)
  | "PRINT" => some (textOperand pseudoPrint)
  | "PUT_CUSTOM" => some customOperand
  | "DEFINE_CHAR" => some (slotAnd patternOperand pseudoDefineChar)
  | "SAVE_CHARS" => some (oneByte .saveChars)
  | "LOAD_CHARS" => some (oneByte .loadChars)
  | "SET_SPLASH" => some (textOperand .setSplash)
  | _ => none

/-- What a written line says. -/
inductive WrittenLine where
  /-- Nothing, or a comment. -/
  | blank
  | operation (i : Instr)
  /-- It is not in the form of rule R76. -/
  | malformed
  deriving DecidableEq, Repr

/-- Read one line. -/
def readLine (cs : List Char) : WrittenLine :=
  match tokens false [] cs with
  | none => .malformed
  | some [] => .blank
  | some (.name m :: rest) =>
    match (operandReader (String.ofList m)).bind (fun read => read rest) with
    | some i => .operation i
    | none => .malformed
  | some _ => .malformed

end Sys2Proof.Machine
end

