-- ==== Sys2Proof/Tests/Slice0.lean ====
section
/-!
SUPPORT. The model's own tests.  The bytes are written out from 30_encoding.md rule R64 and the vectors of 95_test_vectors.md, not from
the model.
-/

namespace Sys2Proof.Tests

open Sys2Proof.Machine

/-! ## Helpers -/

/-- An answer without failure that takes everything. -/
def okAnswer : SinkAnswer :=
  { count := 0, failure := none, taken := 100, stray := [], mix := [] }

/-- An answer with a failure, of which the device got `k` bytes. -/
def failAnswer (code k : Nat) : SinkAnswer :=
  { count := 0, failure := some { code := code }, taken := k, stray := [], mix := [] }

/-- The reset state with the sink's next answers settled and the host's list given. -/
def start (answers : List SinkAnswer) (pending : List Presentation) : State :=
  { State.reset with pending := pending, sink := { Sink.reset with answers := answers } }

/-- An answer without failure of a sink that took `k` bytes, for which the device got others. -/
def shortAnswerOf (k : Nat) (stray : List Byte) : SinkAnswer :=
  { count := k, failure := none, taken := k, stray := stray, mix := [] }

/-- The state an outcome goes on to. -/
def nextOf (o : Host.Outcome State Fault Refusal) : Option State :=
  match o with
  | .next t => some t
  | .fault _ => none
  | .refused _ => none

/-- The refusal an outcome stops with. -/
def refusalOf (o : Host.Outcome State Fault Refusal) : Option Refusal :=
  match o with
  | .next _ => none
  | .fault _ => none
  | .refused r => some r

/-- What one operation adds to the trace under an answer, and what the device has then received. -/
def seen (i : Instr) (a : SinkAnswer) : Option (List Entry × List Byte) :=
  (nextOf (exec i (start [a] []))).map (fun t => (t.trace, t.sink.received))

/-- The burst of an operation whose write succeeds, as the device receives it. -/
def sent (i : Instr) : Option (List Byte) :=
  (seen i okAnswer).map Prod.snd

/-- A row written with characters. -/
def rowOf (cs : List Char) : Row :=
  cs.map Char.toNat

/-- A pattern with the same row eight times. -/
def eight (cs : List Char) : Pattern :=
  Octet.fill (rowOf cs)

/-! ## WellFormed: each check refuses an ill-formed term, and the bound itself passes -/

theorem test_wf_payload :
    (Instr.raw [0#8, 0#8]).check { charW := 8, rowMax := none, rawMax := some 1 } = some .payloadTooLong ∧
      (Instr.raw [0#8]).check { charW := 8, rowMax := none, rawMax := some 1 } = none := by decide

theorem test_wf_payload_pseudo :
    (Instr.setSplash []).check { charW := 8, rowMax := none, rawMax := some 1 } = some .payloadTooLong ∧
      (Instr.saveChars 0#8).check { charW := 8, rowMax := none, rawMax := some 2 } = some .payloadTooLong ∧
      (Instr.loadChars 0#8).check { charW := 8, rowMax := none, rawMax := some 2 } = some .payloadTooLong := by decide

theorem test_wf_row :
    (Instr.packGlyph (Octet.fill [46, 46])).check { charW := 8, rowMax := some 1, rawMax := none } = some .rowTooLong ∧
      (Instr.packGlyph (Octet.fill [46, 46])).check { charW := 8, rowMax := some 2, rawMax := none } = none := by decide

theorem test_wf_char :
    (Instr.packGlyph (Octet.fill [256])).check Config.byDefault = some .charTooWide ∧
      (Instr.packGlyph (Octet.fill [255])).check Config.byDefault = none := by decide

theorem test_step_refuses_long_payload :
    refusalOf (step { start [] [present (.raw [1#8, 2#8])] with cfg := { charW := 8, rowMax := none, rawMax := some 1 } }) =
      some .payloadTooLong := by decide

/-! ## Decoding: a word of every constructor, written out from rule R64 -/

theorem test_decode_display :
    decodeTableWord 40 0xFED0010203 = some (.setBgColor 1#8 2#8 3#8) ∧
      decodeTableWord 24 0xFE4200 = some .backlightOn ∧
      decodeTableWord 16 0xFE46 = some .backlightOff ∧
      decodeTableWord 24 0xFE99C8 = some (.setBrightness 200#8) ∧
      decodeTableWord 24 0xFE91B4 = some (.setContrast 180#8) ∧
      decodeTableWord 16 0xFE51 = some (.setAutoscroll .on) ∧
      decodeTableWord 16 0xFE52 = some (.setAutoscroll .off) ∧
      decodeTableWord 32 0xFED11002 = some (.setDisplaySize 16#8 2#8) ∧
      decodeTableWord 16 0xFE58 = some .clear := by decide

theorem test_decode_cursor :
    decodeTableWord 32 0xFE4AFE53 = some (.setCursorFlags .on .on) ∧
      decodeTableWord 32 0xFE4AFE54 = some (.setCursorFlags .on .off) ∧
      decodeTableWord 32 0xFE4BFE53 = some (.setCursorFlags .off .on) ∧
      decodeTableWord 32 0xFE4BFE54 = some (.setCursorFlags .off .off) ∧
      decodeTableWord 16 0xFE48 = some .goHome ∧
      decodeTableWord 32 0xFE470502 = some (.setCursorPosition 5#8 2#8) ∧
      decodeTableWord 16 0xFE4D = some .cursorForward ∧
      decodeTableWord 16 0xFE4C = some .cursorBack := by decide

theorem test_decode_glyph :
    decodeTableWord 88 0xFE4E01FFFEE0201F008001 =
        some (.createChar 1#8 ⟨0xFF#8, 0xFE#8, 0xE0#8, 0x20#8, 0x1F#8, 0x00#8, 0x80#8, 0x01#8⟩) ∧
      decode (.pk (eight ['X'])) = .ok (.packGlyph (eight ['X'])) := by decide

theorem test_decode_raw :
    decodeTableWord 16 0x4869 = some (.raw [0x48#8, 0x69#8]) ∧
      decodeTableWord 0 0 = some (.raw []) ∧
      decodeTableWord 32 0xFE404869 = some (.setSplash [0x48#8, 0x69#8]) ∧
      decodeTableWord 24 0xFEC100 = some (.saveChars 0#8) ∧
      decodeTableWord 24 0xFEC001 = some (.loadChars 1#8) := by decide

/-- A row given without its argument bytes: they are zero. -/
theorem test_decode_short_words :
    decodeTableWord 16 0xFED0 = some (.setBgColor 0#8 0#8 0#8) ∧
      decodeTableWord 16 0xFE4E = some (.createChar 0#8 (Octet.fill 0#8)) := by decide

/-- What is no operation's burst is rejected by name, and only RAW sends it (rules R69, R102, R130, R183). -/
theorem test_decode_rejects :
    decodeWire [0xFE#8, 0x77#8] = .error (.unlistedOpcode 0x77#8) ∧
      decodeWire [0xFE#8, 0x42#8, 0x05#8] = .error .wrongArguments ∧
      decodeWire [0xFE#8, 0x51#8, 0x01#8] = .error .wrongArguments ∧
      decodeWire [0xFE#8, 0x4A#8] = .error .loneCursorFlag ∧
      decodeWire [0xFE#8, 0x4B#8, 0x54#8] = .error .loneCursorFlag ∧
      decodeWire [0xFE#8] = .error .notAFrame ∧
      decodePort { ReqPort.zero with opSel := 15#4 } = .error .reservedOpSel := by decide

/-- Vectors V-STREAM of 95_test_vectors.md. -/
theorem test_stream_reader :
    ReaderState.text.read [0xFE#8, 0x48#8, 0x48#8] = ([.frame .goHome [], .text 0x48#8], .text) ∧
      ReaderState.text.read [0xFE#8, 0x47#8, 0x05#8, 0x02#8, 0x03#8] =
        ([.frame .setCursorPosition [0x05#8, 0x02#8], .text 0x03#8], .text) ∧
      ReaderState.text.read [0xFE#8, 0x42#8, 0xFE#8, 0x46#8] =
        ([.frame .backlightOn [0xFE#8], .text 0x46#8], .text) ∧
      ReaderState.text.read [0xFE#8, 0x77#8, 0x00#8] = ([], .lost 0x77#8 [0x00#8]) := by decide

/-! ## The operations (vectors V-CFG, V-CUR, V-CHR, V-RAW) -/

theorem test_setBgColor : sent (.setBgColor 254#8 208#8 0#8) = some [0xFE#8, 0xD0#8, 0xFE#8, 0xD0#8, 0x00#8] := by decide

theorem test_backlightOn : sent .backlightOn = some [0xFE#8, 0x42#8, 0x00#8] := by decide

theorem test_backlightOff : sent .backlightOff = some [0xFE#8, 0x46#8] := by decide

theorem test_setBrightness : sent (.setBrightness 128#8) = some [0xFE#8, 0x99#8, 0x80#8] := by decide

theorem test_setContrast : sent (.setContrast 255#8) = some [0xFE#8, 0x91#8, 0xFF#8] := by decide

theorem test_setAutoscroll :
    sent (.setAutoscroll .on) = some [0xFE#8, 0x51#8] ∧ sent (.setAutoscroll .off) = some [0xFE#8, 0x52#8] := by decide

theorem test_setDisplaySize : sent (.setDisplaySize 20#8 4#8) = some [0xFE#8, 0xD1#8, 0x14#8, 0x04#8] := by decide

theorem test_clear : sent .clear = some [0xFE#8, 0x58#8] := by decide

/-- `CLEAR` answered with a failure: the same burst, the failure unchanged, a first part at the device (V-FAIL). -/
theorem test_clear_fails :
    seen .clear (failAnswer 7 1) =
      some ([{ burst := [0xFE#8, 0x58#8], status := .fail { code := 7 } }], [0xFE#8]) := by decide

/-- A short write without a failure is `OK` all the same, and the device holds any bytes (20_memory.md rule R33, U14). -/
theorem test_clear_short :
    seen .clear (shortAnswerOf 1 [0x41#8]) =
      some ([{ burst := [0xFE#8, 0x58#8], status := .ok }], [0x41#8]) := by decide

theorem test_setCursorFlags :
    sent (.setCursorFlags .off .off) = some [0xFE#8, 0x4B#8, 0xFE#8, 0x54#8] ∧
      sent (.setCursorFlags .on .off) = some [0xFE#8, 0x4A#8, 0xFE#8, 0x54#8] := by decide

/-- One write of four bytes, one status (90_conflicts.md C1). -/
theorem test_setCursorFlags_one_write :
    seen (.setCursorFlags .on .on) (failAnswer 3 3) =
      some ([{ burst := [0xFE#8, 0x4A#8, 0xFE#8, 0x53#8], status := .fail { code := 3 } }],
        [0xFE#8, 0x4A#8, 0xFE#8]) := by decide

theorem test_goHome : sent .goHome = some [0xFE#8, 0x48#8] := by decide

theorem test_setCursorPosition : sent (.setCursorPosition 5#8 2#8) = some [0xFE#8, 0x47#8, 0x05#8, 0x02#8] := by decide

theorem test_cursorForward : sent .cursorForward = some [0xFE#8, 0x4D#8] := by decide

theorem test_cursorBack : sent .cursorBack = some [0xFE#8, 0x4C#8] := by decide

theorem test_createChar :
    sent (.createChar 255#8 ⟨0x1F#8, 0x11#8, 0x11#8, 0x11#8, 0x11#8, 0x11#8, 0x1F#8, 0x00#8⟩) =
      some [0xFE#8, 0x4E#8, 0xFF#8, 0x1F#8, 0x11#8, 0x11#8, 0x11#8, 0x11#8, 0x11#8, 0x1F#8, 0x00#8] := by decide

theorem test_raw : sent (.raw [0x48#8, 0x69#8]) = some [0x48#8, 0x69#8] := by decide

/-- `RAW []` is one write of length 0, and can fail (V-FAIL). -/
theorem test_raw_empty :
    seen (.raw []) (failAnswer 4 0) = some ([{ burst := [], status := .fail { code := 4 } }], []) := by decide

theorem test_setSplash : sent (.setSplash [0x48#8, 0x69#8]) = some [0xFE#8, 0x40#8, 0x48#8, 0x69#8] := by decide

theorem test_saveChars : sent (.saveChars 0#8) = some [0xFE#8, 0xC1#8, 0x00#8] := by decide

theorem test_loadChars : sent (.loadChars 1#8) = some [0xFE#8, 0xC0#8, 0x01#8] := by decide

/-! ## The packer (vectors V-PACK) -/

/-- The heart of program P2. -/
theorem test_pack_heart :
    pack ⟨rowOf ['.', 'X', '.', 'X', '.'], rowOf ['X', 'X', 'X', 'X', 'X'], rowOf ['X', 'X', 'X', 'X', 'X'],
        rowOf ['X', 'X', 'X', 'X', 'X'], rowOf ['.', 'X', 'X', 'X', '.'], rowOf ['.', '.', 'X', '.', '.'],
        rowOf ['.', '.', '.', '.', '.'], rowOf [' ', ' ', ' ', ' ', ' ']⟩ =
      ⟨0x0A#8, 0x1F#8, 0x1F#8, 0x1F#8, 0x0E#8, 0x04#8, 0x00#8, 0x00#8⟩ := by decide

/-- Short and long rows (90_conflicts.md C2, rule R155). -/
theorem test_pack_rows :
    packRow (rowOf ['X', 'X']) = 0x03#8 ∧ packRow (rowOf ['X', '.', '.', '.', '.', '.']) = 0x20#8 ∧
      packRow (rowOf ['X', '.', '.', '.', '.', '.', '.', '.', '.']) = 0x00#8 ∧ packRow (rowOf ['.', '.', ',']) = 0x01#8 ∧
      packRow [9, 46, 46, 46, 46] = 0x10#8 := by decide

/-- PACK_GLYPH completes also when the sink's write would never return, and adds no pair. -/
theorem test_packGlyph :
    (nextOf (exec (.packGlyph (eight ['X', 'X', 'X', 'X', 'X'])) { start [] [] with
        sink := { Sink.reset with link := .hung } })).map (fun t => (t.glyphOut, t.trace)) =
      some (Octet.fill 0x1F#8, []) := by decide

/-! ## The step -/

/-- Two requests one after the other, the first one failing: the sequencer goes on (program P3, case (b)). -/
theorem test_step_goes_on_after_failure :
    (nextOf (Sys2Proof.core.run 2
        (start [failAnswer 1 2, okAnswer] [present .cursorForward, present .cursorBack]))).map
        (fun t => (t.index, t.trace.map Entry.status, t.sink.received)) =
      some (2, [.fail { code := 1 }, .ok], [0xFE#8, 0x4D#8, 0xFE#8, 0x4C#8]) := by decide

/-- A table word placed at reset runs as the first operation; its status is the sink's free answer. -/
theorem test_first_word_after_reset :
    step (State.reset.withFetchWord 16 0xFE58) =
      .next ((State.reset.placeNext (present .clear)).accept (present .clear) |>.afterWrite [0xFE#8, 0x58#8]
        State.reset.sink.nextAnswer).advance := rfl

/-- A reset inside an operation leaves a first part of its burst at the device and no status (rule R231). -/
theorem test_reset_during :
    (nextOf (step { start [failAnswer 1 1] [present .clear] with line := .resetDuring })).map
        (fun t => (t.trace, t.rsp, t.sink.received)) = some ([], none, [0xFE#8]) := by decide

/-- Two writers (V-ORD): the corrupt interleaving `FE D0 FE 58 01 02 03` can happen. -/
theorem test_two_writers :
    (interleave [false, false, true, true] [0xFE#8, 0xD0#8, 0x01#8, 0x02#8, 0x03#8] [0xFE#8, 0x58#8]).1 =
      [0xFE#8, 0xD0#8, 0xFE#8, 0x58#8, 0x01#8, 0x02#8, 0x03#8] := by decide

/-- "Hi" in ASCII (rule R78). -/
theorem test_ascii : asciiBytes ['H', 'i'] = some [0x48#8, 0x69#8] := by decide

/-! ## The written form (rules R76, R77; programs P1, P2, P5) -/

theorem test_written_operations :
    readLine "SET_BG_COLOR 0x33, 0x66, 255   ; colour".toList = .operation (.setBgColor 0x33#8 0x66#8 0xFF#8) ∧
      readLine "SET_CURSOR_FLAGS ON, OFF".toList = .operation (.setCursorFlags .on .off) ∧
      readLine "RAW [0xFE,0x4A]".toList = .operation (.raw [0xFE#8, 0x4A#8]) ∧
      readLine "RAW []".toList = .operation (.raw []) ∧
      readLine "; nothing".toList = .blank := by decide

theorem test_written_pseudo_operations :
    readLine "PRINT \"Hi; \"".toList = .operation (.raw [0x48#8, 0x69#8, 0x3B#8, 0x20#8]) ∧
      readLine "PUT_CUSTOM 7".toList = .operation (.raw [7#8]) ∧
      readLine "SAVE_CHARS 0".toList = .operation (.saveChars 0#8) := by decide

theorem test_written_glyph :
    readLine ("CREATE_CHAR 3, ".toList ++ [Char.ofNat 123] ++ "10,31,31,31,14,4,0,0".toList ++ [Char.ofNat 125]) =
      .operation (.createChar 3#8 ⟨0x0A#8, 0x1F#8, 0x1F#8, 0x1F#8, 0x0E#8, 0x04#8, 0x00#8, 0x00#8⟩) := by decide

/-- A number over 255, a missing operand, a third ON/OFF word and an unknown mnemonic are not in the form. -/
theorem test_written_malformed :
    readLine "SET_BRIGHTNESS 256".toList = .malformed ∧ readLine "SET_DISPLAY_SIZE 16".toList = .malformed ∧
      readLine "SET_AUTOSCROLL MAYBE".toList = .malformed ∧ readLine "BLINK".toList = .malformed ∧
      readLine "PUT_CUSTOM 8".toList = .malformed := by decide

/-! ## Witnesses: states and operands that meet each statement's hypotheses together -/

theorem witness_ResetStepEmitsNothing : ({ State.reset with line := .reset } : State).line = .reset := rfl

/-- A sink-writing operation, the sole writer, the sink contract kept. -/
theorem witness_ResetDuringAbandonsOperation :
    ({ start [] [present .clear] with line := .resetDuring } : State).line = .resetDuring ∧
      ({ start [] [present .clear] with line := .resetDuring } : State).fetch = .accepted (present .clear) .clear ∧
      encode .clear = some [0xFE#8, 0x58#8] ∧
      ({ start [] [present .clear] with line := .resetDuring } : State).sink.shortWrite = false ∧
      ({ start [] [present .clear] with line := .resetDuring } : State).soleWriter := by decide

/-- The form inside a PACK_GLYPH. -/
theorem witness_ResetDuringAbandonsOperation_pack :
    ({ start [] [.pk (eight ['X'])] with line := .resetDuring } : State).fetch =
        .accepted (.pk (eight ['X'])) (.packGlyph (eight ['X'])) ∧
      encode (.packGlyph (eight ['X'])) = none := by decide

/-- The forms without an accepted request: none presented, and one that is refused. -/
theorem witness_ResetDuringAbandonsOperation_none :
    ({ start [] [] with line := .resetDuring } : State).fetch = .idle ∧
      ({ start [] [.req { ReqPort.zero with opSel := 15#4 }] with line := .resetDuring } : State).fetch =
        .refused .reservedOpSel := by decide

theorem witness_StepRunsPresentedRequest :
    (start [] [present .clear]).line = .idle ∧ (start [] [present .clear]).pending = present .clear :: [] ∧
      decode (present .clear) = .ok .clear ∧ Instr.clear.WellFormed (start [] [present .clear]).cfg ∧
      (nextOf (exec .clear ((start [okAnswer] [present .clear]).accept (present .clear)))).isSome = true := by decide

/-- The second clause of StepRunsPresentedRequest: an operation whose write never returns. -/
theorem witness_StepRunsPresentedRequest_fault :
    exec .clear ({ start [] [present .clear] with sink := { Sink.reset with link := .hung } }.accept (present .clear)) =
      .fault .sinkHang := rfl

theorem witness_StepIdleWithoutRequest : State.reset.line = .idle ∧ State.reset.pending = [] := by decide

theorem witness_ReservedSelectorRefused :
    (start [] [.req { ReqPort.zero with opSel := 15#4 }]).line = .idle ∧
      (start [] [.req { ReqPort.zero with opSel := 15#4 }]).pending = .req { ReqPort.zero with opSel := 15#4 } :: [] := by
  decide

/-- One payload byte more than `RAW_MAX`. -/
theorem witness_UnpresentableRequestRefused_payload :
    ({ start [] [present (.raw [1#8, 2#8])] with cfg := { charW := 8, rowMax := none, rawMax := some 1 } } :
        State).cfg.rawMax = some 1 ∧ 1 < ({ ReqPort.zero with opSel := 14#4, raw := [1#8, 2#8] } : ReqPort).raw.length := by
  decide

/-- One character more than `ROW_MAX`. -/
theorem witness_UnpresentableRequestRefused_row :
    ({ start [] [.pk (eight ['X', 'X'])] with cfg := { charW := 8, rowMax := some 1, rawMax := none } } :
        State).cfg.rowMax = some 1 ∧ 1 < ((eight ['X', 'X']).get 7).length := by decide

/-- The first code that does not fit eight bits, in rows that fit. -/
theorem witness_UnpresentableRequestRefused_char :
    (∀ j : Fin 8, fits (((Octet.fill [256] : Pattern)).get j).length (start [] [.pk (Octet.fill [256])]).cfg.rowMax = true) ∧
      256 ∈ (Octet.fill [256] : Pattern).get 0 ∧ 2 ^ (start [] [.pk (Octet.fill [256])]).cfg.charW ≤ 256 := by decide

/-- The one hypothesis of the eighteen statements `…Presents` and `BankFramesPresent`, and of DefineCharSendsPackedBytes. -/
theorem witness_Presents : State.reset.sink.link ≠ .hung := by decide

/-- ExactlyOneWrite, OperationFrame, FailureExactlyWhenSinkReportsIt: a writing operation that goes on. -/
theorem witness_ExactlyOneWrite_writes :
    Instr.clear.writesSink = true ∧ (nextOf (exec .clear (start [okAnswer] []))).isSome = true := by decide

/-- ExactlyOneWrite, OperationFrame: the operation that does not write. -/
theorem witness_ExactlyOneWrite_packs :
    (Instr.packGlyph (eight [])).writesSink = false ∧
      (nextOf (exec (.packGlyph (eight [])) (start [] []))).isSome = true := by decide

theorem witness_BurstFromOperandsStatusFromSink :
    encode (.setCursorFlags .off .on) = some [0xFE#8, 0x4B#8, 0xFE#8, 0x53#8] ∧ State.reset.sink.link ≠ .hung := by decide

/-- Two different states from which one operation goes on. -/
theorem witness_HistoryCannotChangeBursts :
    start [okAnswer] [] ≠ start [failAnswer 1 0] [.pk (eight [])] ∧
      (nextOf (exec .clear (start [okAnswer] []))).isSome = true ∧
      (nextOf (exec .clear (start [failAnswer 1 0] [.pk (eight [])]))).isSome = true := by decide

theorem witness_OldPortContentsHaveNoEffect :
    (start [] [.req ReqPort.zero]).line = .idle ∧ (start [] [.req ReqPort.zero]).pending = .req ReqPort.zero :: [] := by
  decide

/-- The failing side and the succeeding side. -/
theorem witness_FailureExactlyWhenSinkReportsIt :
    (start [failAnswer 7 0] []).sink.nextAnswer.failure = some { code := 7 } ∧
      (start [okAnswer] []).sink.nextAnswer.failure = none ∧ Instr.clear.writesSink = true ∧
      (nextOf (exec .clear (start [failAnswer 7 0] []))).isSome = true := by decide

theorem witness_SinkCountIsIgnored :
    Instr.clear.writesSink = true ∧ (start [okAnswer] []).sink.answers = okAnswer :: [] := by decide

/-- None of the burst and all of it. -/
theorem witness_AnyFirstPartMayArrive :
    encode .clear = some [0xFE#8, 0x58#8] ∧ State.reset.sink.link = .opened ∧ State.reset.soleWriter ∧
      0 ≤ [0xFE#8, 0x58#8].length ∧ 2 ≤ [0xFE#8, 0x58#8].length := by decide

theorem witness_ClosedHandleStillPresents :
    encode .clear = some [0xFE#8, 0x58#8] ∧
      ({ State.reset with sink := { Sink.reset with link := .closed } } : State).sink.link = .closed := by decide

/-- Both sides of OnlyAHungWriteStops. -/
theorem witness_OnlyAHungWriteStops :
    (Instr.clear.writesSink = true ∧
      ({ State.reset with sink := { Sink.reset with link := .hung } } : State).sink.link = .hung) ∧
      ¬(Instr.clear.writesSink = true ∧ State.reset.sink.link = .hung) := by decide

/-- Two writes in order, the sole writer, the contract kept. -/
theorem witness_ProgramOrderIsWireOrder :
    encode .clear = some [0xFE#8, 0x58#8] ∧ encode .goHome = some [0xFE#8, 0x48#8] ∧
      (start [okAnswer, okAnswer] []).soleWriter ∧
      ((nextOf (exec .clear (start [okAnswer, okAnswer] []))).map State.rsp) = some (some .ok) ∧
      ((nextOf (exec .clear (start [okAnswer, okAnswer] []))).bind
        (fun t => (nextOf (exec .goHome t)).map (fun u => (u.rsp, u.sink.shortWrite)))) = some (some .ok, false) := by
  decide

/-- The first clause of EveryInterleavingCanHappen: an operation that goes on beside another writer, the contract kept. -/
theorem witness_EveryInterleavingCanHappen_gains :
    ((nextOf (exec .clear { State.reset with
        sink := { Sink.reset with answers := [okAnswer], other := [0x41#8, 0x42#8] } })).map
        (fun t => t.sink.shortWrite)) = some false := by decide

/-- The second clause: an interleaving that takes from both sides and leaves a byte, of the whole burst. -/
theorem witness_EveryInterleavingCanHappen :
    encode .clear = some [0xFE#8, 0x58#8] ∧ State.reset.sink.link ≠ .hung ∧ 2 ≤ [0xFE#8, 0x58#8].length ∧
      ({ Sink.reset with other := [0x41#8, 0x42#8] } : Sink).other = [0x41#8] ++ [0x42#8] ∧
      Interleaving ([0xFE#8, 0x58#8].take 2) [0x41#8] [0xFE#8, 0x41#8, 0x58#8] :=
  ⟨rfl, by decide, by decide, rfl, .left _ (.right _ (.left _ .nil))⟩

/-- The clauses of ShortWriteLeavesStreamFree: a contract kept and one broken, and an operation in a state where it is broken. -/
theorem witness_ShortWriteLeavesStreamFree :
    encode .clear = some [0xFE#8, 0x58#8] ∧ [0xFE#8, 0x58#8] ≠ ([] : List Byte) ∧ State.reset.sink.link = .opened ∧
      honours okAnswer [0xFE#8, 0x58#8] ∧ ¬honours (shortAnswerOf 1 []) [0xFE#8, 0x58#8] ∧
      ((nextOf (exec .clear (start [shortAnswerOf 1 []] []))).map
        (fun t => (t.sink.shortWrite, t.sink.link))) = some (true, .opened) := by decide

theorem witness_DecodeOfPresentIsIdentity :
    (Instr.raw [0xFE#8, 0x58#8]).canonical = true ∧ (Instr.raw [0xFE#8, 0xC1#8]).canonical = true ∧
      (Instr.raw [0xFE#8, 0xC1#8, 0#8]).canonical = false ∧ Instr.clear.canonical = true := by decide

theorem witness_WireDecodeAndEncodeAgree :
    encode .clear = some [0xFE#8, 0x58#8] ∧ ∀ payload, Instr.clear ≠ .raw payload :=
  ⟨rfl, fun _ h => by cases h⟩

/-- Every clause of SelectorReadsItsOwnFields has a port. -/
theorem witness_SelectorReadsItsOwnFields (n : BitVec 4) : ({ ReqPort.zero with opSel := n } : ReqPort).opSel = n := rfl

/-- FramedBurstsAreWholeFrames, ReaderFindsFrames. -/
theorem witness_FramedBurstsAreWholeFrames :
    (Instr.setCursorFlags .on .off).isFramed = true ∧
      encode (.setCursorFlags .on .off) = some [0xFE#8, 0x4A#8, 0xFE#8, 0x54#8] := by decide

/-- A burst cut inside its frame, both RAWs going on, the sole writer, the contract kept. -/
theorem witness_BurstsDoNotMarkFrames :
    Instr.clear.isFramed = true ∧ encode .clear = some ([0xFE#8] ++ [0x58#8]) ∧
      (start [okAnswer, okAnswer] []).soleWriter ∧
      ((nextOf (exec (.raw [0xFE#8]) (start [okAnswer, okAnswer] []))).bind
        (fun t => (nextOf (exec (.raw [0x58#8]) t)).map (fun u => (t.rsp, u.rsp, u.sink.shortWrite)))) =
        some (some .ok, some .ok, false) := by decide

/-- The longest frame, cut right after its opcode: nine bytes missing. -/
theorem witness_BrokenFrameTakesAtMostNine :
    (ReaderState.text.read [0xFE#8, 0x4E#8]).2.missing = some 9 := by decide

/-- An unlisted opcode, and a wire-only one. -/
theorem witness_OtherOpcodesOnlyThroughRaw :
    encode (.raw [0xFE#8, 0x77#8]) = some [0xFE#8, 0x77#8] ∧ Opcode.ofByte 0x77#8 = none ∧
      encode (.saveChars 0#8) = some [0xFE#8, 0xC1#8, 0#8] ∧ Opcode.ofByte 0xC1#8 = some .saveChars ∧
      Opcode.saveChars.wireOnly = true := by decide

theorem witness_RawOfBurstIsTheOperation : encode .clear = some [0xFE#8, 0x58#8] := rfl

/-- Two patterns with other marks and the same classes. -/
theorem witness_MarksDecideGlyphByte :
    eight ['X', '.', '#'] ≠ eight ['#', ' ', '1'] ∧
      rowMarks ((eight ['X', '.', '#']).get 0) = rowMarks ((eight ['#', ' ', '1']).get 0) := by decide

theorem witness_LastEightCharactersCount : (rowOf ['X', 'X', 'X', 'X', 'X', 'X', 'X', 'X']).length = 8 := by decide

/-- The clauses of FiveWidePatternsAreGlyphs: all off, all on, two patterns of one glyph, a glyph with bits 7 to 5 clear. -/
theorem witness_FiveWidePatternsAreGlyphs :
    (eight ['.', ' ', '.', ' ', '.']).fiveWide ∧ (eight ['X', '#', 'X', '1', 'X']).fiveWide ∧
      (∀ k : Fin 8, ∀ c ∈ (eight ['.', ' ', '.', ' ', '.']).get k, isOn c = false) ∧
      (∀ k : Fin 8, ∀ c ∈ (eight ['X', '#', 'X', '1', 'X']).get k, isOn c = true) ∧
      pack (eight ['X', '#', 'X', '1', 'X']) = pack (eight ['1', '1', '1', '1', '1']) ∧
      (∀ k : Fin 8, (Octet.fill 0x1F#8).get k ≤ 0x1F#8) := by decide

/-- StepKeepsConsistency, StepNeverTouchesTheHandle: a consistent state from which a step goes on. -/
theorem witness_StepKeepsConsistency :
    (start [okAnswer] [present .clear]).Consistent ∧ (nextOf (step (start [okAnswer] [present .clear]))).isSome = true :=
  ⟨⟨by decide, fun _ h => by cases h⟩, by decide⟩

/-- StepKeepsDelivery: delivered, the sole writer, and a step that goes on with the contract kept and the status `OK`. -/
theorem witness_StepKeepsDelivery :
    (start [okAnswer] [present .clear]).Delivered ∧ (start [okAnswer] [present .clear]).soleWriter ∧
      ((nextOf (step (start [okAnswer] [present .clear]))).map (fun t => (t.sink.shortWrite, t.rsp))) =
        some (false, some .ok) :=
  ⟨fun _ _ => List.nil_suffix, rfl, by decide⟩

end Sys2Proof.Tests
end

section
/-!
PROOFS. What `exec` and `step` can answer, said once: an operation with an encoding is `execBurst` of it, PACK_GLYPH returns its
glyph, and a step is a reset, an abandoned operation, nothing, or one operation.  With it, what each of them leaves unchanged.
-/

namespace Sys2Proof.Machine

/-! ## The dispatch -/

/-- An operation that has an encoding is one write of it (40_display_config.md rule R100). -/
theorem exec_of_encode {i : Instr} {burst : List Byte} (h : encode i = some burst) (s : State) :
    exec i s = execBurst burst s := by
  cases i with
  | packGlyph => cases h
  | setAutoscroll state => cases state <;> cases h <;> rfl
  | setCursorFlags underline block => cases underline <;> cases block <;> cases h <;> rfl
  | _ => cases h; rfl

/-- PACK_GLYPH returns the packed pattern (42_glyph.md rule R151). -/
@[simp] theorem exec_packGlyph (rows : Pattern) (s : State) :
    exec (.packGlyph rows) s = .next (s.returnGlyph (pack rows)) := rfl

/-- PACK_GLYPH is the one operation without an encoding. -/
theorem encode_eq_none {i : Instr} : encode i = none ↔ ∃ rows, i = .packGlyph rows := by
  constructor
  · intro h
    cases i with
    | packGlyph rows => exact ⟨rows, rfl⟩
    | setAutoscroll state => cases state <;> cases h
    | setCursorFlags underline block => cases underline <;> cases block <;> cases h
    | _ => cases h
  · rintro ⟨rows, rfl⟩
    rfl

/-- A next state of `exec` is that of one write of the encoding, which returned, or that of PACK_GLYPH. -/
theorem exec_inv {i : Instr} {s t : State} (h : exec i s = .next t) :
    (∃ burst, encode i = some burst ∧ s.sink.link ≠ .hung ∧ t = s.afterWrite burst s.sink.nextAnswer) ∨
      (∃ rows, i = .packGlyph rows ∧ t = s.returnGlyph (pack rows)) := by
  cases he : encode i with
  | some burst =>
    rw [exec_of_encode he] at h
    exact .inl ⟨burst, rfl, execBurst_inv h⟩
  | none =>
    obtain ⟨rows, rfl⟩ := encode_eq_none.1 he
    cases h
    exact .inr ⟨rows, rfl, rfl⟩

/-! ## What an operation leaves unchanged -/

/-- A write touches nothing of its surroundings. -/
theorem State.afterWrite_sameSurroundings (s : State) (burst : List Byte) (a : SinkAnswer) :
    s.SameSurroundings (s.afterWrite burst a) := ⟨rfl, rfl, rfl, rfl, rfl, rfl, rfl⟩

/-- Returning a glyph touches nothing of its surroundings. -/
theorem State.returnGlyph_sameSurroundings (s : State) (g : Glyph) : s.SameSurroundings (s.returnGlyph g) :=
  ⟨rfl, rfl, rfl, rfl, rfl, rfl, rfl⟩

/-- The device keeps what it had received before a write. -/
theorem Sink.received_prefix_write (k : Sink) (burst : List Byte) (a : SinkAnswer) :
    k.received <+: (k.write burst a).received := List.prefix_append _ _

theorem exec_sameSurroundings {i : Instr} {s t : State} (h : exec i s = .next t) : s.SameSurroundings t := by
  obtain ⟨burst, -, -, rfl⟩ | ⟨rows, -, rfl⟩ := exec_inv h
  · exact s.afterWrite_sameSurroundings burst _
  · exact s.returnGlyph_sameSurroundings _

theorem exec_received_prefix {i : Instr} {s t : State} (h : exec i s = .next t) :
    s.sink.received <+: t.sink.received := by
  obtain ⟨burst, -, -, rfl⟩ | ⟨rows, -, rfl⟩ := exec_inv h
  · exact s.sink.received_prefix_write burst _
  · exact List.prefix_rfl

/-- The bursts an operation adds to the trace: its encoding, if it has one. -/
theorem exec_trace_bursts {i : Instr} {s t : State} (h : exec i s = .next t) :
    t.trace.map Entry.burst = s.trace.map Entry.burst ++ (encode i).toList := by
  obtain ⟨burst, he, -, rfl⟩ | ⟨rows, rfl, rfl⟩ := exec_inv h
  · simp [he]
  · simp [encode_eq_none.2 ⟨rows, rfl⟩]

theorem exec_trace_prefix {i : Instr} {s t : State} (h : exec i s = .next t) : s.trace <+: t.trace := by
  obtain ⟨burst, -, -, rfl⟩ | ⟨rows, -, rfl⟩ := exec_inv h
  · exact List.prefix_append _ _
  · exact List.prefix_rfl

/-- A sink-writing operation leaves the packer's output alone. -/
theorem exec_glyphOut {i : Instr} {s t : State} (hw : i.writesSink = true) (h : exec i s = .next t) :
    t.glyphOut = s.glyphOut := by
  obtain ⟨burst, -, -, rfl⟩ | ⟨rows, rfl, -⟩ := exec_inv h
  · exact s.afterWrite_glyphOut burst _
  · cases hw

/-! ## A closed handle -/

/-- A closed handle's sink answers every write with a failure (10_state.md rule R18). -/
theorem Sink.nextAnswer_closed {k : Sink} (h : k.link = .closed) : ∃ e, k.nextAnswer.failure = some e := by
  simp [Sink.nextAnswer, h]

/-! ## The step -/

/-- A reset inside the next operation: a plain reset, a reset after a PACK_GLYPH was accepted, or one after a write was cut off
(70_reset_and_hazards.md rule R231). -/
theorem State.abandon_cases (s : State) :
    s.abandon = s.applyReset ∨
      (∃ p rows, s.fetch = .accepted p (.packGlyph rows) ∧ s.abandon = (s.accept p).applyReset) ∨
      (∃ p i burst, s.fetch = .accepted p i ∧ encode i = some burst ∧
        s.abandon = ((s.accept p).sinkCutOff burst s.sink.nextAnswer).applyReset) := by
  cases hf : s.fetch with
  | idle => simp [State.abandon, hf]
  | refused r => simp [State.abandon, hf]
  | accepted p i =>
    cases he : encode i with
    | none =>
      obtain ⟨rows, rfl⟩ := encode_eq_none.1 he
      exact .inr (.inl ⟨p, rows, rfl, by simp [State.abandon, hf, he]⟩)
    | some burst => exact .inr (.inr ⟨p, i, burst, rfl, he, by simp [State.abandon, hf, he]⟩)

/-- A next state of `step` is that of a reset, of an abandoned operation, the same state when the host presents nothing, or that
of the accepted operation with the index moved on. -/
theorem step_inv {s t : State} (h : step s = .next t) :
    (s.line = .reset ∧ t = s.applyReset) ∨
      (s.line = .resetDuring ∧ t = s.abandon) ∨
      (s.line = .idle ∧ s.fetch = .idle ∧ t = s) ∨
      (∃ p i u, s.line = .idle ∧ s.fetch = .accepted p i ∧ exec i (s.accept p) = .next u ∧ t = u.advance) := by
  unfold step at h
  split at h
  case h_1 hl => cases h; exact .inl ⟨hl, rfl⟩
  case h_2 hl => cases h; exact .inr (.inl ⟨hl, rfl⟩)
  case h_3 hl =>
    split at h
    case h_1 hf => cases h; exact .inr (.inr (.inl ⟨hl, hf, rfl⟩))
    case h_2 => cases h
    case h_3 p i hf =>
      split at h
      case h_1 u hu => cases h; exact .inr (.inr (.inr ⟨p, i, u, hl, hf, hu, rfl⟩))
      case h_2 => cases h
      case h_3 => cases h

end Sys2Proof.Machine
end

section
/-!
PROOFS. The statements of 10_state.md: what an operation presents and leaves unchanged, the closed handle, and what no step touches.
-/

namespace Sys2Proof.Machine

/-- Settles O28: from every state the bursts added are the encoding's. -/
theorem historyCannotChangeBursts : Obligations.HistoryCannotChangeBursts := by
  intro i s1 s2 t1 t2 h1 h2
  exact ⟨(encode i).toList, exec_trace_bursts h1, exec_trace_bursts h2⟩

/-- Settles O30, from what the two kinds of operation leave unchanged. -/
theorem operationFrame : Obligations.OperationFrame := by
  intro i s t h
  exact ⟨exec_sameSurroundings h, fun hw => exec_glyphOut hw h, exec_trace_prefix h, exec_received_prefix h⟩

/-- Settles O34: a closed handle is not a hung one, so the write returns, and its answer is a failure. -/
theorem closedHandleStillPresents : Obligations.ClosedHandleStillPresents := by
  intro i burst s he hl
  obtain ⟨e, hfail⟩ := Sink.nextAnswer_closed hl
  have hnext : exec i s = .next (s.afterWrite burst s.sink.nextAnswer) := by
    rw [exec_of_encode he, execBurst_next burst (by simp [hl])]
  exact ⟨_, e, hnext, by simp [hfail], by simp [hfail]⟩

/-- What O58 says of one transition: the handle and the parameters stay, and the device keeps what it has received. -/
structure State.KeepsHandle (s t : State) : Prop where
  link : t.sink.link = s.sink.link
  cfg : t.cfg = s.cfg
  received : s.sink.received <+: t.sink.received

theorem State.applyReset_keepsHandle (s : State) : s.KeepsHandle s.applyReset := ⟨rfl, rfl, List.prefix_rfl⟩

theorem State.abandon_keepsHandle (s : State) : s.KeepsHandle s.abandon := by
  obtain h | ⟨p, rows, -, h⟩ | ⟨p, i, burst, -, -, h⟩ := s.abandon_cases <;> rw [h]
  · exact s.applyReset_keepsHandle
  · exact ⟨by simp, by simp, by simp⟩
  · exact ⟨by simp, by simp, by simp⟩

/-- An accepted operation that goes on, with the index moved on. -/
theorem State.advance_keepsHandle {i : Instr} {s u : State} {p : Presentation}
    (h : exec i (s.accept p) = .next u) : s.KeepsHandle u.advance := by
  have hsame := exec_sameSurroundings h
  exact ⟨by simpa using hsame.link, by simpa using hsame.cfg, by simpa using exec_received_prefix h⟩

/-- Settles O58, by the four kinds of step. -/
theorem stepNeverTouchesTheHandle : Obligations.StepNeverTouchesTheHandle := by
  intro s t h
  have hkeeps : s.KeepsHandle t := by
    obtain ⟨-, rfl⟩ | ⟨-, rfl⟩ | ⟨-, -, rfl⟩ | ⟨p, i, u, -, -, hu, rfl⟩ := step_inv h
    · exact s.applyReset_keepsHandle
    · exact s.abandon_keepsHandle
    · exact ⟨rfl, rfl, List.prefix_rfl⟩
    · exact State.advance_keepsHandle hu
  exact ⟨hkeeps.link, hkeeps.cfg, hkeeps.received⟩

end Sys2Proof.Machine
end

section
/-!
PROOFS. The sole writer's writes under the sink contract (20_memory.md rules R33, R36, R37): what a write adds to the stream and to
what the device has received.
-/

namespace Sys2Proof.Machine

/-! ## The trace and its stream -/

@[simp] theorem statusOf_eq_ok {a : SinkAnswer} : statusOf a = .ok ↔ a.failure = none := by
  cases h : a.failure <;> simp [h]

@[simp] theorem streamOf_nil : streamOf [] = [] := rfl

theorem streamOf_append_entry (trace : List Entry) (e : Entry) :
    streamOf (trace ++ [e]) = streamOf trace ++ e.burst := by
  simp [streamOf]

theorem allOk_append_entry {trace : List Entry} {e : Entry} :
    allOk (trace ++ [e]) ↔ allOk trace ∧ e.status = .ok := by
  simp [allOk, or_imp, forall_and]

/-! ## One write -/

/-- The contract holds up to the end of a write exactly when it held before it and the answer keeps it. -/
theorem Sink.write_kept {k : Sink} {burst : List Byte} {a : SinkAnswer} :
    (k.write burst a).shortWrite = false ↔ k.shortWrite = false ∧ shortAnswer a burst = false :=
  Bool.or_eq_false_iff

/-- The sole writer stays the sole writer through a write. -/
theorem Sink.write_other_alone {k : Sink} (burst : List Byte) (a : SinkAnswer) (h : k.other = []) :
    (k.write burst a).other = [] := by
  simp [h]

/-- Under the contract the sole writer's device gains a first part of the burst (60_exceptions.md rule R205). -/
theorem Sink.write_received_firstPart {k : Sink} {burst : List Byte} {a : SinkAnswer} (hsole : k.other = [])
    (hkept : (k.write burst a).shortWrite = false) :
    ∃ n ≤ burst.length, (k.write burst a).received = k.received ++ burst.take n := by
  obtain ⟨hk, ha⟩ := Sink.write_kept.1 hkept
  refine ⟨min a.taken burst.length, Nat.min_le_right _ _, ?_⟩
  rw [Sink.write_received_alone burst a hsole, Sink.passed_kept hk ha, List.take_eq_take_min]

/-- Under the contract the sole writer's device gains the whole burst of a write that ends with `OK`. -/
theorem Sink.write_received_whole {k : Sink} {burst : List Byte} {a : SinkAnswer} (hsole : k.other = [])
    (hkept : (k.write burst a).shortWrite = false) (hok : statusOf a = .ok) :
    (k.write burst a).received = k.received ++ burst := by
  obtain ⟨hk, ha⟩ := Sink.write_kept.1 hkept
  rw [Sink.write_received_alone burst a hsole, Sink.passed_whole hk ha (statusOf_eq_ok.1 hok)]

/-! ## One operation -/

/-- A next state of an operation with an encoding is that of one write of it. -/
theorem exec_encode_inv {i : Instr} {burst : List Byte} {s t : State} (he : encode i = some burst)
    (h : exec i s = .next t) : t = s.afterWrite burst s.sink.nextAnswer := by
  rw [exec_of_encode he] at h
  exact (execBurst_inv h).2

/-- An operation adds its encoding to the stream. -/
theorem exec_streamOf {i : Instr} {burst : List Byte} {s t : State} (he : encode i = some burst)
    (h : exec i s = .next t) : streamOf t.trace = streamOf s.trace ++ burst := by
  simp [streamOf, exec_trace_bursts h, he]

/-- Under the contract the sole writer's device gains a first part of an operation's burst. -/
theorem exec_received_firstPart {i : Instr} {burst : List Byte} {s t : State} (he : encode i = some burst)
    (h : exec i s = .next t) (hsole : s.soleWriter) (hkept : t.sink.shortWrite = false) :
    ∃ n ≤ burst.length, t.sink.received = s.sink.received ++ burst.take n := by
  obtain rfl := exec_encode_inv he h
  exact Sink.write_received_firstPart hsole hkept

/-- Under the contract the sole writer's device gains the whole burst of an operation that ends with `OK`. -/
theorem exec_received_whole {i : Instr} {burst : List Byte} {s t : State} (he : encode i = some burst)
    (h : exec i s = .next t) (hsole : s.soleWriter) (hkept : t.sink.shortWrite = false) (hok : t.rsp = some .ok) :
    t.sink.received = s.sink.received ++ burst := by
  obtain rfl := exec_encode_inv he h
  exact Sink.write_received_whole hsole hkept (Option.some.inj hok)

/-- A contract that holds after an operation held before it: the mark of a broken one is never cleared. -/
theorem exec_kept_before {i : Instr} {s t : State} (h : exec i s = .next t) (hkept : t.sink.shortWrite = false) :
    s.sink.shortWrite = false := by
  obtain ⟨burst, -, -, rfl⟩ | ⟨rows, -, rfl⟩ := exec_inv h
  · exact (Sink.write_kept.1 hkept).1
  · exact hkept

/-- The sole writer stays the sole writer through an operation. -/
theorem exec_soleWriter {i : Instr} {s t : State} (hsole : s.soleWriter) (h : exec i s = .next t) : t.soleWriter := by
  obtain ⟨burst, -, -, rfl⟩ | ⟨rows, -, rfl⟩ := exec_inv h
  · exact Sink.write_other_alone burst _ hsole
  · exact hsole

/-- An operation writes to the sink when it has an encoding. -/
theorem Instr.writesSink_of_encode {i : Instr} {burst : List Byte} (he : encode i = some burst) :
    i.writesSink = true := by
  simp [Instr.writesSink, he]

/-! ## Delivery -/

/-- Nothing is owed for an empty trace. -/
theorem State.delivered_of_trace_nil {s : State} (h : s.trace = []) : s.Delivered := by
  intro _ _
  simp [h]

/-- Delivery speaks of the trace and the sink alone. -/
theorem State.Delivered.congr {s t : State} (hs : s.Delivered) (htrace : t.trace = s.trace) (hsink : t.sink = s.sink) :
    t.Delivered := by
  rw [State.Delivered, htrace, hsink]
  exact hs

/-- A write by the sole writer keeps delivery: with `OK` the whole burst joins both the stream and what was received. -/
theorem State.Delivered.afterWrite {s : State} (hs : s.Delivered) (hsole : s.soleWriter) (burst : List Byte)
    (a : SinkAnswer) : (s.afterWrite burst a).Delivered := by
  intro hkept hall
  obtain ⟨hallBefore, hok⟩ := allOk_append_entry.1 hall
  have hbefore : streamOf s.trace <:+ s.sink.received := hs (Sink.write_kept.1 hkept).1 hallBefore
  rw [State.afterWrite_trace, streamOf_append_entry, State.afterWrite_sink, Sink.write_received_whole hsole hkept hok]
  exact (List.suffix_append_inj_of_length_eq rfl).2 ⟨hbefore, rfl⟩

/-- An operation of the sole writer keeps delivery. -/
theorem exec_delivered {i : Instr} {s t : State} (hs : s.Delivered) (hsole : s.soleWriter)
    (h : exec i s = .next t) : t.Delivered := by
  obtain ⟨burst, -, -, rfl⟩ | ⟨rows, -, rfl⟩ := exec_inv h
  · exact hs.afterWrite hsole burst _
  · exact hs

/-- Accepting a request brings no other writer to the sink. -/
theorem State.accept_soleWriter {s : State} (p : Presentation) (hsole : s.soleWriter) : (s.accept p).soleWriter := by
  rwa [State.soleWriter, State.accept_sink]

/-- After a reset inside an operation the trace is empty. -/
theorem State.abandon_trace (s : State) : s.abandon.trace = [] := by
  obtain h | ⟨p, rows, -, h⟩ | ⟨p, i, burst, -, -, h⟩ := s.abandon_cases <;> rw [h, State.applyReset_trace]

/-- The sole writer stays the sole writer when a reset cuts an operation off. -/
theorem State.abandon_soleWriter {s : State} (hsole : s.soleWriter) : s.abandon.soleWriter := by
  obtain h | ⟨p, rows, -, h⟩ | ⟨p, i, burst, -, -, h⟩ := s.abandon_cases <;> rw [h]
  · exact hsole
  · exact State.accept_soleWriter p hsole
  · simp [State.soleWriter, hsole]

end Sys2Proof.Machine
end

section
/-!
PROOFS. The statements of 20_memory.md: one write per operation, the order of the wire, and delivery.
-/

namespace Sys2Proof.Machine

/-- Settles O57, by the four kinds of step: a reset empties the trace, and an operation delivers what it adds to it. -/
theorem stepKeepsDelivery : Obligations.StepKeepsDelivery := by
  intro s t hs hsole h
  obtain ⟨-, rfl⟩ | ⟨-, rfl⟩ | ⟨-, -, rfl⟩ | ⟨p, i, u, -, -, hu, rfl⟩ := step_inv h
  · exact ⟨State.delivered_of_trace_nil s.applyReset_trace, hsole⟩
  · exact ⟨State.delivered_of_trace_nil s.abandon_trace, State.abandon_soleWriter hsole⟩
  · exact ⟨hs, hsole⟩
  · have haccepted : (s.accept p).Delivered := hs.congr (s.accept_trace p) (s.accept_sink p)
    have hacceptedSole : (s.accept p).soleWriter := State.accept_soleWriter p hsole
    have hsoleAfter : u.soleWriter := exec_soleWriter hacceptedSole hu
    exact ⟨(exec_delivered haccepted hacceptedSole hu).congr u.advance_trace u.advance_sink, hsoleAfter⟩

/-- Settles O26, by the two kinds of operation. -/
theorem exactlyOneWrite : Obligations.ExactlyOneWrite := by
  intro i s t h
  obtain ⟨burst, he, -, rfl⟩ | ⟨rows, rfl, rfl⟩ := exec_inv h
  · have hwrites := Instr.writesSink_of_encode he
    exact ⟨fun _ => ⟨rfl, _, rfl, he⟩, fun hno => by simp [hwrites] at hno⟩
  · exact ⟨nofun, fun _ => ⟨rfl, rfl, rfl⟩⟩

/-- Settles O36: each of the two writes adds its burst to the stream, and under the contract its own part of it at the device. -/
theorem programOrderIsWireOrder : Obligations.ProgramOrderIsWireOrder := by
  intro i j b1 b2 s t u hi hj hexec1 hexec2
  refine ⟨by rw [exec_streamOf hj hexec2, exec_streamOf hi hexec1], fun hsole hkept2 => ?_⟩
  have hkept1 : t.sink.shortWrite = false := exec_kept_before hexec2 hkept2
  have hsole1 : t.soleWriter := exec_soleWriter hsole hexec1
  constructor
  · obtain ⟨k1, hk1, hreceived1⟩ := exec_received_firstPart hi hexec1 hsole hkept1
    obtain ⟨k2, hk2, hreceived2⟩ := exec_received_firstPart hj hexec2 hsole1 hkept2
    exact ⟨k1, k2, hk1, hk2, by rw [hreceived2, hreceived1]⟩
  · intro hok1 hok2
    rw [exec_received_whole hj hexec2 hsole1 hkept2 hok2, exec_received_whole hi hexec1 hsole hkept1 hok1]

end Sys2Proof.Machine
end

section
/-!
PROOFS. A framed operation's burst is the bytes of its frames (30_encoding.md rules R60, R61, R68), and what a reader of the stream
makes of whole frames (rules R71, R72).
-/

namespace Sys2Proof

/-- No opcode's byte is the command byte. -/
theorem Opcode.byte_ne_prefix (o : Opcode) : o.byte ≠ commandPrefix := by
  cases o <;> decide

/-! ## The frames of an operation -/

/-- The bytes of the stream that an item is read from. -/
def WireItem.bytes (w : WireItem) : List Byte :=
  match w with
  | .frame o args => commandPrefix :: o.byte :: args
  | .text b => [b]

/-- The item is a frame with its opcode's number of argument bytes, and its opcode is not wire-only. -/
inductive WireItem.WholeFrame : WireItem → Prop where
  | intro {o : Opcode} {args : List Byte} (count : o.argCount = some args.length) (emitted : o.wireOnly = false) :
    WholeFrame (.frame o args)

theorem Autoscroll.wholeFrame_opcode (a : Autoscroll) : (WireItem.frame a.opcode []).WholeFrame := by
  cases a <;> exact .intro rfl rfl

theorem UnderlineCursor.wholeFrame_opcode (u : UnderlineCursor) : (WireItem.frame u.opcode []).WholeFrame := by
  cases u <;> exact .intro rfl rfl

theorem BlockCursor.wholeFrame_opcode (k : BlockCursor) : (WireItem.frame k.opcode []).WholeFrame := by
  cases k <;> exact .intro rfl rfl

/-- Every frame the model lists for an operation is whole. -/
theorem wholeFrame_of_mem_framesOf {i : Instr} {w : WireItem} (h : w ∈ framesOf i) : w.WholeFrame := by
  cases i
  case setCursorFlags u k =>
    obtain rfl | rfl : w = .frame u.opcode [] ∨ w = .frame k.opcode [] := by simpa [framesOf] using h
    · exact u.wholeFrame_opcode
    · exact k.wholeFrame_opcode
  case setAutoscroll a =>
    obtain rfl := List.mem_singleton.1 h
    exact a.wholeFrame_opcode
  case raw | setSplash | saveChars | loadChars | packGlyph => cases h
  all_goals
    obtain rfl := List.mem_singleton.1 h
    exact .intro rfl rfl

/-- An operation has at most two frames: SET_CURSOR_FLAGS has two (41_cursor.md rule R130). -/
theorem length_framesOf_le (i : Instr) : (framesOf i).length ≤ 2 := by
  cases i <;> simp [framesOf]

/-- A framed operation's burst is the bytes of its frames. -/
theorem encode_framed {i : Instr} (h : i.isFramed = true) : encode i = some ((framesOf i).flatMap WireItem.bytes) := by
  cases i
  case setAutoscroll a => cases a <;> rfl
  case setCursorFlags u k => cases u <;> cases k <;> rfl
  case raw | setSplash | saveChars | loadChars | packGlyph => cases h
  all_goals rfl

theorem framesOf_ne_nil {i : Instr} (h : i.isFramed = true) : framesOf i ≠ [] := by
  cases i
  case raw | setSplash | saveChars | loadChars | packGlyph => cases h
  all_goals exact List.cons_ne_nil _ _

/-- Whole frames are given by their opcodes and argument bytes. -/
theorem exists_map_frame {ws : List WireItem} (h : ∀ w ∈ ws, w.WholeFrame) :
    ∃ fs : List (Opcode × List Byte), fs.map (fun f => WireItem.frame f.1 f.2) = ws := by
  have hrange : ∀ w ∈ ws, w ∈ Set.range (fun f : Opcode × List Byte => WireItem.frame f.1 f.2) := by
    intro w hw
    obtain ⟨-, -⟩ := h w hw
    exact ⟨(_, _), rfl⟩
  exact (Set.range_list_map _).ge hrange

/-! ## A reader of whole frames -/

/-- A reader inside a frame takes the missing argument bytes and then stands outside a frame. -/
theorem ReaderState.read_args (o : Opcode) (got args : List Byte) (more : Nat) (h : args.length = more + 1) :
    (ReaderState.args o got more).read args = ([.frame o (got ++ args)], .text) := by
  induction args generalizing got more with
  | nil => cases h
  | cons b rest ih =>
    cases more with
    | zero =>
      obtain rfl : rest = [] := by simpa using h
      rfl
    | succ n =>
      have hrest := ih (got ++ [b]) n (by simpa using h)
      simp [ReaderState.read_cons, ReaderState.feed, hrest]

/-- A reader outside a frame reads a whole frame as that frame. -/
theorem ReaderState.read_bytes {w : WireItem} (h : w.WholeFrame) : ReaderState.text.read w.bytes = ([w], .text) := by
  obtain @⟨o, args, hcount, -⟩ := h
  cases args with
  | nil => simp [WireItem.bytes, ReaderState.read_cons, ReaderState.feed, hcount]
  | cons b rest =>
    have hargs := ReaderState.read_args o [] (b :: rest) rest.length rfl
    rw [WireItem.bytes, ReaderState.read_cons, ReaderState.read_cons]
    simp [ReaderState.feed, hcount, hargs]

/-- A reader outside a frame reads whole frames one after the other. -/
theorem ReaderState.read_flatMap_bytes {ws : List WireItem} (h : ∀ w ∈ ws, w.WholeFrame) :
    ReaderState.text.read (ws.flatMap WireItem.bytes) = (ws, .text) := by
  induction ws with
  | nil => rfl
  | cons w ws ih =>
    obtain ⟨hw, hws⟩ := List.forall_mem_cons.1 h
    simp [ReaderState.read_append, ReaderState.read_bytes hw, ih hws]

/-- A reader outside a frame reads a framed operation's burst as the operation's frames. -/
theorem ReaderState.read_framed {i : Instr} {burst : List Byte} (hf : i.isFramed = true) (he : encode i = some burst) :
    ReaderState.text.read burst = (framesOf i, .text) := by
  obtain rfl := Option.some.inj ((encode_framed hf).symm.trans he)
  exact ReaderState.read_flatMap_bytes fun _ => wholeFrame_of_mem_framesOf

/-! ## The opcode of a framed burst -/

/-- An operation with an encoding is of RAW's kind or framed. -/
theorem Instr.isRawKind_or_isFramed {i : Instr} {burst : List Byte} (he : encode i = some burst) :
    i.isRawKind = true ∨ i.isFramed = true := by
  cases hraw : i.isRawKind <;> simp [Instr.isFramed, Instr.writesSink, he, hraw]

/-- The second byte of a framed operation's burst is an opcode's that is not wire-only. -/
theorem exists_opcode_of_framed {i : Instr} {a b : Byte} {rest : List Byte} (hf : i.isFramed = true)
    (he : encode i = some (a :: b :: rest)) : ∃ o : Opcode, o.byte = b ∧ o.wireOnly = false := by
  have hburst := Option.some.inj ((encode_framed hf).symm.trans he)
  obtain ⟨w, ws, hws⟩ := List.exists_cons_of_ne_nil (framesOf_ne_nil hf)
  obtain @⟨o, args, -, hemitted⟩ : w.WholeFrame := wholeFrame_of_mem_framesOf (i := i) (by simp [hws])
  simp only [hws, List.flatMap_cons, WireItem.bytes, List.cons_append, List.cons.injEq] at hburst
  obtain ⟨-, hopcode, -⟩ := hburst
  exact ⟨o, hopcode, hemitted⟩

/-! ## The burst decoder -/

/-- The burst of an operation other than RAW is read as that operation. -/
theorem decodeWire_of_encode {i : Instr} {burst : List Byte} (he : encode i = some burst)
    (hraw : ∀ payload, i ≠ .raw payload) : decodeWire burst = .ok i := by
  cases i
  case raw payload => exact absurd rfl (hraw payload)
  case packGlyph => cases he
  case setAutoscroll a => cases a <;> (cases he; rfl)
  case setCursorFlags u k => cases u <;> cases k <;> (cases he; rfl)
  all_goals
    cases he
    rfl

theorem decodeBurst_of_decodeWire {bytes : List Byte} {i : Instr} (h : decodeWire bytes = .ok i) :
    decodeBurst bytes = i := by
  simp [decodeBurst, h]

/-- Every byte sequence is the burst of the operation read from it: what the wire decoder rejects is read as RAW. -/
theorem encode_decodeBurst (bytes : List Byte) : encode (decodeBurst bytes) = some bytes := by
  cases h : decodeWire bytes with
  | ok i => rw [decodeBurst_of_decodeWire h, encode_of_decodeWire h]
  | error e => simp [decodeBurst, h, encode]

end Sys2Proof
end

section
/-!
PROOFS. The statements of 30_encoding.md: the wire round trip, the frames of a burst, and the opcodes that only RAW sends.
-/

namespace Sys2Proof

/-- Settles O39, from the two directions of the burst decoder. -/
theorem wireDecodeAndEncodeAgree : Obligations.WireDecodeAndEncodeAgree := by
  refine ⟨encode_decodeBurst, fun i burst he hraw => ?_⟩
  have hwire := decodeWire_of_encode he hraw
  exact ⟨hwire, decodeBurst_of_decodeWire hwire⟩

/-- Settles O43: the frames are the opcodes and argument bytes of `framesOf`. -/
theorem framedBurstsAreWholeFrames : Obligations.FramedBurstsAreWholeFrames := by
  intro i burst hf he
  have hwhole : ∀ w ∈ framesOf i, w.WholeFrame := fun _ => wholeFrame_of_mem_framesOf
  obtain ⟨frames, hframes⟩ := exists_map_frame hwhole
  refine ⟨frames, ?_, ?_, ?_, fun f hmem => ?_⟩
  · rintro rfl
    exact framesOf_ne_nil hf hframes.symm
  · simpa [← hframes] using length_framesOf_le i
  · rw [encode_framed hf, ← hframes, List.flatMap_map] at he
    exact (Option.some.inj he).symm
  · rw [← hframes] at hwhole
    obtain ⟨hcount, hemitted⟩ := hwhole _ (List.mem_map_of_mem hmem)
    exact ⟨f.1.byte_ne_prefix, hcount, hemitted⟩

/-- Settles O44: the burst is read as the operation's frames, and reading goes on after it from outside a frame. -/
theorem readerFindsFrames : Obligations.ReaderFindsFrames := by
  intro i burst rest hf he
  rw [ReaderState.read_append, ReaderState.read_framed hf he]

/-- Settles O47: a framed operation's second byte is a listed opcode's that is not wire-only. -/
theorem otherOpcodesOnlyThroughRaw : Obligations.OtherOpcodesOnlyThroughRaw := by
  intro i a b rest he hother
  obtain hraw | hf := Instr.isRawKind_or_isFramed he
  · exact hraw
  · obtain ⟨o, rfl, hemitted⟩ := exists_opcode_of_framed hf he
    simp [hemitted] at hother

/-- Settles O41, by evaluation of the decoders on the eight words. -/
theorem sampleWordsDecode : Obligations.SampleWordsDecode := by
  unfold Obligations.SampleWordsDecode
  decide

end Sys2Proof
end

section
/-!
PROOFS. The statements of 40_display_config.md: an operation with an encoding is one write of it (rule R100), and the encodings of
the eight display configuration operations (rules R101 to R108).
-/

namespace Sys2Proof.Machine

/-- An operation with an encoding goes on whenever the transport's write returns: one write of the encoding, and the sink's status. -/
theorem exec_next_of_encode {i : Instr} {burst : List Byte} {s : State} (he : encode i = some burst)
    (hreturns : s.sink.link ≠ .hung) : exec i s = .next (s.afterWrite burst s.sink.nextAnswer) := by
  rw [exec_of_encode he, execBurst_next burst hreturns]

/-- Settles O27, by the dispatch to `execBurst` and what that answers when the write returns. -/
theorem burstFromOperandsStatusFromSink : Obligations.BurstFromOperandsStatusFromSink := by
  intro i burst s he hreturns
  exact exec_next_of_encode he hreturns

/-- The encoding of SET_AUTOSCROLL: its operand is the opcode (30_encoding.md rule R66). -/
theorem encode_setAutoscroll (state : Autoscroll) :
    encode (.setAutoscroll state) = some [0xFE#8, if state = .on then 0x51#8 else 0x52#8] := by
  cases state with
  | on => rfl
  | off => rfl

/-- Settles O8, from the encoding. -/
theorem setBgColorPresents : Obligations.SetBgColorPresents := by
  intro r g b s hreturns
  exact exec_next_of_encode rfl hreturns

/-- Settles O9, from the encoding with its constant third byte. -/
theorem backlightOnPresents : Obligations.BacklightOnPresents := by
  intro s hreturns
  exact exec_next_of_encode rfl hreturns

/-- Settles O10, from the encoding. -/
theorem backlightOffPresents : Obligations.BacklightOffPresents := by
  intro s hreturns
  exact exec_next_of_encode rfl hreturns

/-- Settles O11, from the encoding. -/
theorem setBrightnessPresents : Obligations.SetBrightnessPresents := by
  intro bright s hreturns
  exact exec_next_of_encode rfl hreturns

/-- Settles O12, from the encoding. -/
theorem setContrastPresents : Obligations.SetContrastPresents := by
  intro contrast s hreturns
  exact exec_next_of_encode rfl hreturns

/-- Settles O13, from the encoding of either state. -/
theorem setAutoscrollPresents : Obligations.SetAutoscrollPresents := by
  intro state s hreturns
  exact exec_next_of_encode (encode_setAutoscroll state) hreturns

/-- Settles O14, from the encoding, columns first. -/
theorem setDisplaySizePresents : Obligations.SetDisplaySizePresents := by
  intro cols rows s hreturns
  exact exec_next_of_encode rfl hreturns

/-- Settles O15, from the encoding. -/
theorem clearPresents : Obligations.ClearPresents := by
  intro s hreturns
  exact exec_next_of_encode rfl hreturns

end Sys2Proof.Machine
end

section
/-!
PROOFS. The statements of 41_cursor.md: each operation is one write of its encoding, by `exec_next_of_encode` (rules R130 to R134).
-/

namespace Sys2Proof.Machine

/-- The encoding of SET_CURSOR_FLAGS: each operand is the opcode of one of the two frames (30_encoding.md rule R66). -/
theorem encode_setCursorFlags (underline : UnderlineCursor) (block : BlockCursor) :
    encode (.setCursorFlags underline block) =
      some [0xFE#8, if underline = .on then 0x4A#8 else 0x4B#8, 0xFE#8, if block = .on then 0x53#8 else 0x54#8] := by
  cases underline with
  | on =>
    cases block with
    | on => rfl
    | off => rfl
  | off =>
    cases block with
    | on => rfl
    | off => rfl

/-- Settles O16, from the encoding of every pair of operands. -/
theorem setCursorFlagsPresents : Obligations.SetCursorFlagsPresents := by
  intro underline block s hreturns
  exact exec_next_of_encode (encode_setCursorFlags underline block) hreturns

/-- Settles O17, from the encoding. -/
theorem goHomePresents : Obligations.GoHomePresents := by
  intro s hreturns
  exact exec_next_of_encode rfl hreturns

/-- Settles O18, from the encoding, the column first. -/
theorem setCursorPositionPresents : Obligations.SetCursorPositionPresents := by
  intro col row s hreturns
  exact exec_next_of_encode rfl hreturns

/-- Settles O19, from the encoding. -/
theorem cursorForwardPresents : Obligations.CursorForwardPresents := by
  intro s hreturns
  exact exec_next_of_encode rfl hreturns

/-- Settles O20, from the encoding. -/
theorem cursorBackPresents : Obligations.CursorBackPresents := by
  intro s hreturns
  exact exec_next_of_encode rfl hreturns

end Sys2Proof.Machine
end

section
/-!
PROOFS. The statements of 42_glyph.md: what one character does to a row's byte (rule R151), from which a row's byte follows bit by bit
and as a sum (rule R157), and the two operations CREATE_CHAR and PACK_GLYPH.
-/

namespace Sys2Proof.Machine

/-! ## The marks of a row -/

@[simp] theorem length_rowMarks (row : Row) : (rowMarks row).length = row.length := by
  simp [rowMarks]

@[simp] theorem rowMarks_append_char (row : Row) (c : CharCode) : rowMarks (row ++ [c]) = rowMarks row ++ [isOn c] := by
  simp [rowMarks]

/-- A character added at the end leaves the marks before it alone. -/
theorem markAt_append_char_of_lt {row : Row} {j : Nat} (c : CharCode) (h : j < row.length) :
    markAt (row ++ [c]) j = markAt row j := by
  simp [markAt, List.getElem?_append_left, h]

theorem markAt_append_char_length (row : Row) (c : CharCode) :
    markAt (row ++ [c]) row.length = (isOn c).toNat := by
  cases h : isOn c <;> simp [markAt, h]

/-! ## One character into the accumulator -/

theorem packChar_getLsbD_zero (acc : Byte) (c : CharCode) : (packChar acc c).getLsbD 0 = isOn c := by
  cases h : isOn c <;> simp [packChar, h]

theorem packChar_getLsbD_succ {j : Nat} (acc : Byte) (c : CharCode) (h : j + 1 < 8) :
    (packChar acc c).getLsbD (j + 1) = acc.getLsbD j := by
  cases hc : isOn c <;> simp [packChar, hc, h, BitVec.getLsbD_eq_getElem (Nat.lt_of_succ_lt h)]

theorem packChar_toNat (acc : Byte) (c : CharCode) :
    (packChar acc c).toNat = (2 * acc.toNat + (isOn c).toNat) % 256 := by
  have hshift : (acc <<< 1 ||| 1#8) = acc <<< 1 + 1#8 := by
    refine (BitVec.add_eq_or_of_and_eq_zero _ _ ?_).symm
    ext j
    cases j <;> simp
  cases h : isOn c <;> simp [packChar, h, hshift, BitVec.toNat_add, Nat.shiftLeft_eq, Nat.mul_comm]

/-! ## A row's byte -/

/-- Bit `j` of a row's byte is the mark that stands `j` places before the row's last one. -/
theorem packRow_getLsbD (row : Row) {j : Nat} (hj : j < 8) :
    (packRow row).getLsbD j = (rowMarks row).reverse[j]?.getD false := by
  induction row using List.reverseRecOn generalizing j with
  | nil => simp [rowMarks]
  | append_singleton row c ih =>
    rw [packRow_append_char]
    cases j with
    | zero => rw [packChar_getLsbD_zero]; simp
    | succ j => rw [packChar_getLsbD_succ _ c hj, ih (Nat.lt_of_succ_lt hj)]; simp

/-- The sum of rule R157: the number that the row's marks spell, the last one its lowest digit. -/
def markSum (row : Row) : Nat :=
  ∑ j ∈ Finset.range row.length, markAt row j * 2 ^ (row.length - 1 - j)

/-- One more character doubles the sum and adds its mark. -/
theorem markSum_append_char (row : Row) (c : CharCode) :
    markSum (row ++ [c]) = 2 * markSum row + (isOn c).toNat := by
  have hdouble : ∀ j ∈ Finset.range row.length,
      markAt (row ++ [c]) j * 2 ^ (row.length - j) = 2 * (markAt row j * 2 ^ (row.length - 1 - j)) := by
    intro j hj
    have hlt : j < row.length := Finset.mem_range.1 hj
    have hexp : row.length - j = row.length - 1 - j + 1 := by omega
    rw [markAt_append_char_of_lt c hlt, hexp, pow_succ]
    ring
  simp [markSum, Finset.sum_range_succ, Finset.sum_congr rfl hdouble, Finset.mul_sum, markAt_append_char_length]

theorem packRow_toNat (row : Row) : (packRow row).toNat = markSum row % 256 := by
  induction row using List.reverseRecOn with
  | nil => rfl
  | append_singleton row c ih =>
    rw [packRow_append_char, packChar_toNat, ih, markSum_append_char]
    omega

/-- A row's byte depends on its marks alone (rules R154, R160). -/
theorem packRow_congr {r s : Row} (h : rowMarks r = rowMarks s) : packRow r = packRow s :=
  BitVec.eq_of_getLsbD_eq fun j hj => by rw [packRow_getLsbD r hj, packRow_getLsbD s hj, h]

/-! ## The obligations -/

/-- Settles O51, by the sum and the bits of a row's byte, both by induction on the row from its end. -/
theorem packedRowClosedForm : Obligations.PackedRowClosedForm := by
  refine fun row => ⟨packRow_toNat row, fun j hj => ?_⟩
  rw [packRow_getLsbD row hj]
  by_cases hlt : j < row.length
  · rw [if_pos hlt, List.getElem?_reverse (by simpa using hlt), length_rowMarks]
  · simp [hlt]

/-- Settles O52: byte k is the byte of row k, which its marks decide. -/
theorem marksDecideGlyphByte : Obligations.MarksDecideGlyphByte := by
  intro p q k h
  rw [pack_get, pack_get, packRow_congr h]

/-- Settles O21, from the encoding, the glyph's bytes in index order. -/
theorem createCharPresents : Obligations.CreateCharPresents := by
  intro slot glyph s hreturns
  exact exec_next_of_encode rfl hreturns

/-- Settles O25, from what PACK_GLYPH answers in every state and what one more character does to a row's byte. -/
theorem packGlyphReturnsGlyph : Obligations.PackGlyphReturnsGlyph :=
  ⟨fun rows s => ⟨s.returnGlyph (pack rows), exec_packGlyph rows s, rfl, pack_get rows⟩, packRow_nil, packRow_append_char⟩

end Sys2Proof.Machine
end

section
/-!
PROOFS. The statements of 43_raw.md: RAW is one write of its payload (rule R180), and so RAW of an operation's burst is that operation
(rule R183).
-/

namespace Sys2Proof.Machine

/-- RAW's encoding is its payload, with nothing added (rule R180). -/
@[simp] theorem encode_raw (payload : List Byte) : encode (.raw payload) = some payload := rfl

/-- RAW is one write of its payload, in every state, the one where the transport's write never returns among them. -/
theorem exec_raw (payload : List Byte) (s : State) : exec (.raw payload) s = execBurst payload s :=
  exec_of_encode (encode_raw payload) s

/-- Settles O22, from RAW's encoding. -/
theorem rawPresents : Obligations.RawPresents := by
  intro payload s hreturns
  exact exec_next_of_encode (encode_raw payload) hreturns

/-- Settles O48: both sides are one write of the burst. -/
theorem rawOfBurstIsTheOperation : Obligations.RawOfBurstIsTheOperation := by
  intro i burst s he
  calc
    exec (.raw burst) s = execBurst burst s := exec_raw burst s
    _ = exec i s := (exec_of_encode he s).symm

end Sys2Proof.Machine
end

section
/-!
PROOFS. The statements of 60_exceptions.md: the status of an operation is the sink's answer to its one write (rules R200, R204), and
only a write that never returns keeps an operation from completing (rule R203, 93_implementation_defined.md U13).
-/

namespace Sys2Proof.Machine

/-- The status is `FAIL(e)` exactly when the sink's answer has failure `e` (rule R200). -/
@[simp] theorem statusOf_eq_fail {a : SinkAnswer} {e : Err} : statusOf a = .fail e ↔ a.failure = some e := by
  cases h : a.failure <;> simp [h]

/-- An operation that writes to the sink has an encoding. -/
theorem Instr.exists_encode_of_writesSink {i : Instr} (hw : i.writesSink = true) : ∃ burst, encode i = some burst :=
  Option.isSome_iff_exists.1 hw

/-- An operation with an encoding stops as the fault when the transport's write never returns (93_implementation_defined.md U13). -/
theorem exec_hung_of_encode {i : Instr} {burst : List Byte} {s : State} (he : encode i = some burst)
    (hhung : s.sink.link = .hung) : exec i s = .fault .sinkHang := by
  rw [exec_of_encode he, execBurst_hung burst hhung]

/-- Settles O31: the next state is that of one write of the encoding, whose status is that of the sink's one answer. -/
theorem failureExactlyWhenSinkReportsIt : Obligations.FailureExactlyWhenSinkReportsIt := by
  intro i s t e hw h
  obtain ⟨burst, he⟩ := Instr.exists_encode_of_writesSink hw
  obtain rfl := exec_encode_inv he h
  refine ⟨?_, ?_, ?_, ?_⟩
  · rw [State.afterWrite_rsp, Option.some.injEq, statusOf_eq_fail]
  · rw [State.afterWrite_rsp, Option.some.injEq, statusOf_eq_ok]
  · simp
  · rw [State.afterWrite_sink, Sink.write_draws]

/-- Settles O35: an operation with an encoding is one write, which returns or hangs, and PACK_GLYPH returns its glyph in every
state. -/
theorem onlyAHungWriteStops : Obligations.OnlyAHungWriteStops := by
  intro i s
  split
  case isTrue hhangs =>
    obtain ⟨hw, hhung⟩ := hhangs
    obtain ⟨burst, he⟩ := Instr.exists_encode_of_writesSink hw
    exact exec_hung_of_encode he hhung
  case isFalse hgoes =>
    cases he : encode i with
    | some burst =>
      have hreturns : s.sink.link ≠ .hung := fun hhung => hgoes ⟨Instr.writesSink_of_encode he, hhung⟩
      exact ⟨_, exec_next_of_encode he hreturns⟩
    | none =>
      obtain ⟨rows, rfl⟩ := encode_eq_none.1 he
      exact ⟨_, exec_packGlyph rows s⟩

end Sys2Proof.Machine
end

section
/-!
PROOFS. The request side (30_encoding.md section 6): what `decode` reads from a presentation, the round trip with `present`, and the
opcode map.
-/

namespace Sys2Proof

/-! ## RAW requests -/

/-- A RAW request is named as an operation of RAW's kind. -/
theorem isRawKind_decodeRaw (payload : List Byte) : (decodeRaw payload).isRawKind = true := by
  unfold decodeRaw
  split <;> rfl

/-- However a RAW request is named, its burst is the payload (rule R77). -/
theorem encode_decodeRaw (payload : List Byte) : encode (decodeRaw payload) = some payload := by
  unfold decodeRaw
  split
  case h_1 hw => exact encode_of_decodeWire hw
  case h_2 hw => exact encode_of_decodeWire hw
  case h_3 hw => exact encode_of_decodeWire hw
  case h_4 => rfl

theorem decodePort_raw {p : ReqPort} (h : p.opSel = 14#4) : decodePort p = .ok (decodeRaw p.raw) := by
  rw [decodePort, h]
  rfl

theorem decodePort_reserved {p : ReqPort} (h : p.opSel = 15#4) : decodePort p = .error .reservedOpSel := by
  rw [decodePort, h]
  rfl

/-- An operation of RAW's kind is checked by the length of its burst (92_eei_decisions.md D9). -/
theorem Instr.check_of_isRawKind {i : Instr} {burst : List Byte} (c : Config) (hraw : i.isRawKind = true)
    (he : encode i = some burst) : i.check c = checkPayload c burst.length := by
  cases i
  case raw | setSplash | saveChars | loadChars => cases he; rfl
  all_goals cases hraw

/-! ## The round trip -/

/-- What the host presents for an operation written the decoder's way is decoded as it. -/
theorem decode_present {i : Instr} (h : i.canonical = true) : decode (present i) = .ok i := by
  cases i
  case raw payload =>
    have hspelling : wireOnlySpelling payload = false := by simpa [Instr.canonical] using h
    exact congrArg Except.ok (decodeRaw_canonical hspelling)
  all_goals rfl

/-- An operation that is not written the decoder's way is a RAW. -/
theorem Instr.exists_raw_of_not_canonical {i : Instr} (h : i.canonical ≠ true) : ∃ payload, i = .raw payload := by
  cases i
  case raw payload => exact ⟨payload, rfl⟩
  all_goals exact absurd rfl h

/-- Settles O38: by the cases of the operation, and for a RAW in any spelling by what the decoder's name for it encodes to. -/
theorem decodeOfPresentIsIdentity : Obligations.DecodeOfPresentIsIdentity := by
  refine ⟨fun i => decode_present, fun i => ?_⟩
  by_cases hcanonical : i.canonical = true
  · exact ⟨i, decode_present hcanonical, rfl⟩
  · obtain ⟨payload, rfl⟩ := Instr.exists_raw_of_not_canonical hcanonical
    exact ⟨decodeRaw payload, rfl, encode_decodeRaw payload⟩

/-- Settles O42, by evaluation of the decoder at each selector. -/
theorem selectorReadsItsOwnFields : Obligations.SelectorReadsItsOwnFields := by
  intro p
  refine ⟨?_, ?_, ?_, ?_, ?_, ?_, ?_, ?_, ?_, ?_, ?_, ?_, ?_, ?_,
    fun h => ⟨decodeRaw p.raw, decodePort_raw h, encode_decodeRaw p.raw⟩, decodePort_reserved⟩
  all_goals
    intro h
    rw [decodePort, h]
    rfl

/-- Settles O40: the table by evaluation, the reading of a byte from `Opcode.ofByte_byte` and its converse. -/
theorem opcodeMap : Obligations.OpcodeMap := by
  refine ⟨rfl, fun b o => ⟨Opcode.byte_of_ofByte, ?_⟩, ?_, ?_, ?_⟩
  · rintro rfl
    exact o.ofByte_byte
  · intro a
    cases a <;> rfl
  · intro u
    cases u <;> rfl
  · intro k
    cases k <;> rfl

end Sys2Proof
end

section
/-!
PROOFS. What the step answers, case by case (10_state.md rule R13, 20_memory.md rule R41), and the requests the block does not accept
(92_eei_decisions.md D3, D9, D10, D14).
-/

namespace Sys2Proof

/-! ## The checks -/

theorem fits_eq_false {n m : Nat} (h : m < n) : fits n (some m) = false := by
  simp [fits, h]

theorem Octet.all_toList {α : Type} (o : Octet α) (f : α → Bool) :
    o.toList.all f = true ↔ ∀ k, f (o.get k) = true := by
  simp [Octet.toList, Octet.get, Fin.forall_fin_succ]

theorem checkPattern_of_longRow {c : Config} {rows : Pattern} {k : Fin 8}
    (h : fits (rows.get k).length c.rowMax = false) : checkPattern c rows = some .rowTooLong := by
  have hrows : ¬ rows.toList.all (fun row => fits row.length c.rowMax) = true := by
    rw [Octet.all_toList]
    intro hall
    simp [hall k] at h
  rw [checkPattern, if_neg hrows]

theorem checkPattern_of_wideChar {c : Config} {rows : Pattern} {k : Fin 8} {code : CharCode}
    (hfits : ∀ j, fits (rows.get j).length c.rowMax = true) (hmem : code ∈ rows.get k) (hwide : 2 ^ c.charW ≤ code) :
    checkPattern c rows = some .charTooWide := by
  have hrows : rows.toList.all (fun row => fits row.length c.rowMax) = true := (Octet.all_toList _ _).2 hfits
  have hcodes : ¬ rows.toList.all (fun row => row.all (fun code => decide (code < 2 ^ c.charW))) = true := by
    rw [Octet.all_toList]
    intro hall
    have hlt : code < 2 ^ c.charW := of_decide_eq_true (List.all_eq_true.1 (hall k) code hmem)
    exact Nat.not_lt.2 hwide hlt
  rw [checkPattern, if_pos hrows, if_neg hcodes]

end Sys2Proof

namespace Sys2Proof.Machine

/-! ## What is fetched -/

theorem State.fetch_of_pending_nil {s : State} (hp : s.pending = []) : s.fetch = .idle := by
  simp [State.fetch, hp]

theorem State.fetch_of_decode_error {s : State} {p : Presentation} {rest : List Presentation} {e : PortError}
    (hp : s.pending = p :: rest) (hd : decode p = .error e) : s.fetch = .refused (refusalOfPort e) := by
  simp [State.fetch, hp, hd]

theorem State.fetch_of_check {s : State} {p : Presentation} {rest : List Presentation} {i : Instr} {w : IllFormed}
    (hp : s.pending = p :: rest) (hd : decode p = .ok i) (hc : i.check s.cfg = some w) :
    s.fetch = .refused (refusalOfIllFormed w) := by
  simp [State.fetch, hp, hd, hc]

theorem State.fetch_ne_idle {s : State} {p : Presentation} {rest : List Presentation} (hp : s.pending = p :: rest) :
    s.fetch ≠ .idle := by
  cases hd : decode p with
  | error e => simp [State.fetch_of_decode_error hp hd]
  | ok i =>
    cases hc : i.check s.cfg with
    | some w => simp [State.fetch_of_check hp hd hc]
    | none => simp [State.fetch_of_decode hp hd hc]

/-! ## What the step answers -/

theorem step_of_reset {s : State} (hl : s.line = .reset) : step s = .next s.applyReset := by
  simp [step, hl]

theorem step_of_resetDuring {s : State} (hl : s.line = .resetDuring) : step s = .next s.abandon := by
  simp [step, hl]

theorem step_of_fetch_idle {s : State} (hl : s.line = .idle) (hf : s.fetch = .idle) : step s = .next s := by
  simp [step, hl, hf]

theorem step_of_fetch_refused {s : State} {r : Refusal} (hl : s.line = .idle) (hf : s.fetch = .refused r) :
    step s = .refused r := by
  simp [step, hl, hf]

theorem step_of_exec_next {s u : State} {p : Presentation} {i : Instr} (hl : s.line = .idle)
    (hf : s.fetch = .accepted p i) (hu : exec i (s.accept p) = .next u) : step s = .next u.advance := by
  simp [step, hl, hf, hu]

theorem step_of_exec_fault {s : State} {p : Presentation} {i : Instr} {f : Fault} (hl : s.line = .idle)
    (hf : s.fetch = .accepted p i) (hu : exec i (s.accept p) = .fault f) : step s = .fault f := by
  simp [step, hl, hf, hu]

theorem step_of_exec_refused {s : State} {p : Presentation} {i : Instr} {r : Refusal} (hl : s.line = .idle)
    (hf : s.fetch = .accepted p i) (hu : exec i (s.accept p) = .refused r) : step s = .refused r := by
  simp [step, hl, hf, hu]

/-- Idle states in which the same request is fetched and accepting it gives the same state step alike. -/
theorem step_congr {s s' : State} (hl : s.line = .idle) (hl' : s'.line = .idle) (hfetch : s'.fetch = s.fetch)
    (hpresented : s.fetch ≠ .idle) (haccept : ∀ p i, s.fetch = .accepted p i → s'.accept p = s.accept p) :
    step s' = step s := by
  cases hf : s.fetch with
  | idle => exact absurd hf hpresented
  | refused r => rw [step_of_fetch_refused hl hf, step_of_fetch_refused hl' (hfetch.trans hf)]
  | accepted p i => simp only [step, hl, hl', hfetch, hf, haccept p i hf]

/-! ## The obligations -/

/-- Settles O7: the operation that each such request names fails its check. -/
theorem unpresentableRequestRefused : Obligations.UnpresentableRequestRefused := by
  refine ⟨?_, ?_, ?_⟩
  · intro s p rest m hl hp hsel hmax hlong
    have hcheck : (decodeRaw p.raw).check s.cfg = some .payloadTooLong := by
      rw [Instr.check_of_isRawKind s.cfg (isRawKind_decodeRaw _) (encode_decodeRaw _)]
      simp [checkPayload, hmax, fits_eq_false hlong]
    exact step_of_fetch_refused hl (State.fetch_of_check hp (decodePort_raw hsel) hcheck)
  · intro s rows rest m k hl hp hmax hlong
    have hcheck : checkPattern s.cfg rows = some .rowTooLong :=
      checkPattern_of_longRow (k := k) (by rw [hmax, fits_eq_false hlong])
    exact step_of_fetch_refused hl (State.fetch_of_check hp rfl hcheck)
  · intro s rows rest k c hl hp hfits hmem hwide
    have hcheck : checkPattern s.cfg rows = some .charTooWide := checkPattern_of_wideChar hfits hmem hwide
    exact step_of_fetch_refused hl (State.fetch_of_check hp rfl hcheck)

/-- Settles O6: the decoder rejects the selector. -/
theorem reservedSelectorRefused : Obligations.ReservedSelectorRefused := by
  intro s p rest hl hp hsel
  exact step_of_fetch_refused hl (State.fetch_of_decode_error hp (decodePort_reserved hsel))

/-- Settles O5: nothing is fetched. -/
theorem stepIdleWithoutRequest : Obligations.StepIdleWithoutRequest := by
  intro s hl hp
  exact step_of_fetch_idle hl (State.fetch_of_pending_nil hp)

/-- Settles O4: the request is accepted, and the step answers what its operation does. -/
theorem stepRunsPresentedRequest : Obligations.StepRunsPresentedRequest := by
  intro s p rest i hl hp hd hwf
  have hf : s.fetch = .accepted p i := State.fetch_of_decode hp hd hwf
  exact ⟨by simp [hp], s.accept_sink p, s.accept_trace p, s.accept_index p, fun t => step_of_exec_next hl hf,
    fun f => step_of_exec_fault hl hf, fun r => step_of_exec_refused hl hf⟩

/-- Settles O29: accepting a REQ request writes over the port's fields and the status output. -/
theorem oldPortContentsHaveNoEffect : Obligations.OldPortContentsHaveNoEffect := by
  intro s p q rest old hl hp
  have hfetch : ({ s with req := q, rsp := old } : State).fetch = s.fetch := by simp [State.fetch, hp]
  refine step_congr hl hl hfetch (State.fetch_ne_idle hp) fun p' i hf => ?_
  obtain ⟨hhead, -, -⟩ := State.fetch_accepted hf
  obtain rfl : Presentation.req p = p' := by simpa [hp] using hhead
  rfl

end Sys2Proof.Machine
end

section
/-!
PROOFS. The books of a run (10_state.md rules R12, R13, R21): every step keeps trace, index and status output in agreement.
-/

namespace Sys2Proof.Machine

theorem State.applyReset_consistent (s : State) : s.applyReset.Consistent := ⟨le_rfl, nofun⟩

theorem State.abandon_consistent (s : State) : s.abandon.Consistent := by
  obtain h | ⟨p, rows, -, h⟩ | ⟨p, i, burst, -, -, h⟩ := s.abandon_cases <;> rw [h]
  all_goals exact State.applyReset_consistent _

/-- Accepting a request takes the status output back to none, or leaves it alone. -/
theorem State.Consistent.accept {s : State} (hs : s.Consistent) (p : Presentation) : (s.accept p).Consistent := by
  cases p with
  | req q => exact ⟨hs.count, nofun⟩
  | pk rows => exact ⟨hs.count, hs.output⟩

/-- A write adds one pair, whose status is the one on the output, and the index moves on by one. -/
theorem State.Consistent.afterWrite_advance {s : State} (hs : s.Consistent) (burst : List Byte) (a : SinkAnswer) :
    (s.afterWrite burst a).advance.Consistent where
  count := by simpa using hs.count
  output := by simp

/-- PACK_GLYPH adds no pair, and the index moves on by one. -/
theorem State.Consistent.returnGlyph_advance {s : State} (hs : s.Consistent) (g : Glyph) :
    (s.returnGlyph g).advance.Consistent where
  count := hs.count.trans (Nat.le_succ _)
  output := hs.output

theorem State.Consistent.exec_advance {i : Instr} {s u : State} (hs : s.Consistent) (h : exec i s = .next u) :
    u.advance.Consistent := by
  obtain ⟨burst, -, -, rfl⟩ | ⟨rows, -, rfl⟩ := exec_inv h
  · exact hs.afterWrite_advance burst _
  · exact hs.returnGlyph_advance _

/-- Settles O56, by the four kinds of step. -/
theorem stepKeepsConsistency : Obligations.StepKeepsConsistency := by
  intro s t hs h
  obtain ⟨-, rfl⟩ | ⟨-, rfl⟩ | ⟨-, -, rfl⟩ | ⟨p, i, u, -, -, hu, rfl⟩ := step_inv h
  · exact s.applyReset_consistent
  · exact s.abandon_consistent
  · exact hs
  · exact (hs.accept p).exec_advance hu

end Sys2Proof.Machine
end

section
/-!
PROOFS. What the device gains of one write beside another writer (20_memory.md rule R38), and the statements of
70_reset_and_hazards.md section 1: reset between two operations and inside one.
-/

namespace Sys2Proof.Machine

/-! ## Merges -/

/-- Beside a writer that sends nothing, the merge is the burst's own bytes. -/
theorem Interleaving.eq_left {bytes zs : List Byte} (h : Interleaving bytes [] zs) : zs = bytes := by
  generalize hgone : ([] : List Byte) = gone at h
  induction h with
  | nil => rfl
  | left b _ ih => rw [ih hgone]
  | right o _ _ => cases hgone

/-- Delivering the first bytes of a burst gains a merge of some first part of it. -/
theorem Sink.deliver_gainedMerge (k : Sink) (burst : List Byte) (n : Nat) (a : SinkAnswer) :
    ∃ m, m ≤ burst.length ∧ GainedMerge burst m k (k.deliver (burst.take n) a) := by
  obtain ⟨gone, hgone, hmerge⟩ := interleave_spec a.mix (burst.take n) k.other
  refine ⟨min n burst.length, Nat.min_le_right _ _, gone, _, rfl, hgone, ?_⟩
  rwa [← List.take_eq_take_min]

/-- The sole writer's device gains that first part itself. -/
theorem GainedMerge.received_alone {burst : List Byte} {m : Nat} {before after : Sink}
    (h : GainedMerge burst m before after) (hsole : before.other = []) :
    after.received = before.received ++ burst.take m := by
  obtain ⟨gone, zs, hreceived, hgone, hmerge⟩ := h
  obtain ⟨rfl, -⟩ := List.append_eq_nil_iff.1 (hgone.symm.trans hsole)
  rw [hreceived, hmerge.eq_left]

/-- A write cut off while the contract has been kept gains a merge of some first part of its burst. -/
theorem Sink.writeCutOff_gainedMerge {k : Sink} (burst : List Byte) (a : SinkAnswer) (hk : k.shortWrite = false) :
    ∃ m, m ≤ burst.length ∧ GainedMerge burst m k (k.writeCutOff burst a) := by
  have hpart : k.firstPart burst a = burst.take a.taken := by simp [Sink.firstPart, hk]
  rw [Sink.writeCutOff, hpart]
  exact k.deliver_gainedMerge burst _ a

/-- A write after which the contract still holds gains a merge of some first part of its burst. -/
theorem Sink.write_gainedMerge {k : Sink} {burst : List Byte} {a : SinkAnswer}
    (hkept : (k.write burst a).shortWrite = false) :
    ∃ m, m ≤ burst.length ∧ GainedMerge burst m k (k.write burst a) := by
  obtain ⟨hk, ha⟩ := Sink.write_kept.1 hkept
  rw [Sink.write, Sink.passed_kept hk ha]
  exact k.deliver_gainedMerge burst _ a

/-! ## A reset inside an operation -/

@[simp] theorem State.accept_glyphOut (s : State) (p : Presentation) : (s.accept p).glyphOut = s.glyphOut := by
  cases p <;> rfl

theorem State.abandon_of_no_encoding {s : State} {p : Presentation} {i : Instr} (hf : s.fetch = .accepted p i)
    (he : encode i = none) : s.abandon = (s.accept p).applyReset := by
  simp [State.abandon, hf, he]

theorem State.abandon_of_encode {s : State} {p : Presentation} {i : Instr} {burst : List Byte}
    (hf : s.fetch = .accepted p i) (he : encode i = some burst) :
    s.abandon = ((s.accept p).sinkCutOff burst s.sink.nextAnswer).applyReset := by
  simp [State.abandon, hf, he]

theorem State.abandon_of_not_accepted {s : State} (h : ∀ p i, s.fetch ≠ .accepted p i) :
    s.abandon = s.applyReset := by
  obtain hreset | ⟨p, rows, hf, -⟩ | ⟨p, i, burst, hf, -, -⟩ := s.abandon_cases
  · exact hreset
  · exact absurd hf (h p _)
  · exact absurd hf (h p i)

/-! ## The obligations -/

/-- Settles O3: an accepted PACK_GLYPH leaves the sink alone, and the burst of any other accepted operation is cut off. -/
theorem resetDuringAbandonsOperation : Obligations.ResetDuringAbandonsOperation := by
  intro s hl
  refine ⟨fun p i hf => ⟨s.abandon, step_of_resetDuring hl, ?_⟩, fun hnone => ?_⟩
  · cases he : encode i with
    | none =>
      rw [State.abandon_of_no_encoding hf he]
      exact ⟨rfl, rfl, rfl, rfl, by simp, by simp, by simp, by simp, fun _ => by simp, nofun⟩
    | some burst =>
      rw [State.abandon_of_encode hf he]
      refine ⟨rfl, rfl, rfl, rfl, by simp, by simp, by simp, by simp, nofun, fun burst' hburst hkept => ?_⟩
      obtain rfl := Option.some.inj hburst
      rw [State.applyReset_sink, State.sinkCutOff_sink, State.accept_sink]
      obtain ⟨m, hm, hgained⟩ := Sink.writeCutOff_gainedMerge burst s.sink.nextAnswer hkept
      exact ⟨⟨m, hm, hgained⟩, fun hsole => ⟨m, hm, hgained.received_alone hsole⟩⟩
  · rw [step_of_resetDuring hl, State.abandon_of_not_accepted hnone, step_of_reset (s := { s with line := .reset }) rfl]
    rfl

/-- Settles O2: the next state is `applyReset`. -/
theorem resetStepEmitsNothing : Obligations.ResetStepEmitsNothing := by
  intro s hl
  exact ⟨s.applyReset, step_of_reset hl, rfl, rfl, rfl, rfl, rfl, rfl, rfl, rfl, rfl, rfl⟩

/-- Settles O1: with an empty trace nothing is counted, shown or owed. -/
theorem resetStateIsIdle : Obligations.ResetStateIsIdle :=
  ⟨rfl, rfl, rfl, rfl, rfl, ⟨le_rfl, nofun⟩, State.delivered_of_trace_nil rfl⟩

end Sys2Proof.Machine
end

section
/-!
PROOFS. What the environment may settle: the count that is not read (20_memory.md rule R33), every first part with every failure
(60_exceptions.md rule R205), every interleaving with another writer (20_memory.md rule R38), and the free stream after a short write
(93_implementation_defined.md U14).
-/

namespace Sys2Proof.Machine

/-! ## A settled answer -/

/-- The state in which the environment has settled the sink's next answer, and no later one. -/
def State.settle (s : State) (a : SinkAnswer) : State :=
  { s with sink := { s.sink with answers := [a] } }

/-- On an open handle a settled answer is the one the operation ends with. -/
theorem exec_settle {i : Instr} {burst : List Byte} {s : State} (he : encode i = some burst) (hl : s.sink.link = .opened)
    (a : SinkAnswer) : exec i (s.settle a) = .next ((s.settle a).afterWrite burst a) := by
  have hanswer : (s.settle a).sink.nextAnswer = a := Sink.nextAnswer_settled hl rfl
  have hreturns : (s.settle a).sink.link ≠ .hung := fun hhung => by cases hl.symm.trans hhung
  rw [exec_next_of_encode he hreturns, hanswer]

/-- Whatever the handle, a settled answer keeps its draws, and it can only get a failure, never lose one (10_state.md rule R18). -/
theorem Sink.nextAnswer_draws {k : Sink} {a : SinkAnswer} {rest : List SinkAnswer} (h : k.answers = a :: rest) :
    k.nextAnswer.taken = a.taken ∧ k.nextAnswer.stray = a.stray ∧ k.nextAnswer.mix = a.mix ∧
      (k.nextAnswer.failure = none → a.failure = none) := by
  cases hl : k.link <;> simp [Sink.nextAnswer, h, hl]

/-- A settled answer with another count is the same answer but for the count. -/
theorem Sink.nextAnswer_recount {k : Sink} {a : SinkAnswer} {rest : List SinkAnswer} (h : k.answers = a :: rest) (c : Nat) :
    ({ k with answers := { a with count := c } :: rest } : Sink).nextAnswer = { k.nextAnswer with count := c } := by
  cases hl : k.link <;> simp [Sink.nextAnswer, h, hl]

/-! ## The count -/

/-- An operation with an encoding does the same in states where the write of it does. -/
theorem exec_congr_of_afterWrite {i : Instr} {burst : List Byte} {s s' : State} (he : encode i = some burst)
    (hlink : s'.sink.link = s.sink.link)
    (h : s'.afterWrite burst s'.sink.nextAnswer = s.afterWrite burst s.sink.nextAnswer) : exec i s' = exec i s := by
  by_cases hhung : s.sink.link = .hung
  · rw [exec_hung_of_encode he hhung, exec_hung_of_encode he (hlink.trans hhung)]
  · rw [exec_next_of_encode he hhung, exec_next_of_encode he (hlink.trans_ne hhung), h]

/-- Settles O32: the next answer is the same but for the count, which neither the write nor the status reads. -/
theorem sinkCountIsIgnored : Obligations.SinkCountIsIgnored := by
  intro i s a rest c hw ha
  obtain ⟨burst, he⟩ := Instr.exists_encode_of_writesSink hw
  refine exec_congr_of_afterWrite he (s := s) rfl ?_
  rw [Sink.nextAnswer_recount ha]
  simp [State.afterWrite, Sink.write, Sink.deliver, Sink.passed, Sink.firstPart, shortAnswer, statusOf, ha]

/-! ## Every first part, every interleaving -/

/-- An answer that took the first `k` bytes of a burst, of a sink that passes them on whether or not its contract is broken, in
the given order beside another writer's. -/
def answerTaking (failure : Option Err) (burst : List Byte) (k : Nat) (mix : List Bool) : SinkAnswer :=
  { count := k, failure := failure, taken := k, stray := burst.take k, mix := mix }

/-- An answer that agrees with `answerTaking` in its draws passes on the first `k` bytes. -/
theorem Sink.passed_of_taking {a : SinkAnswer} {burst : List Byte} {k : Nat} (htaken : a.taken = k)
    (hstray : a.stray = burst.take k) (sink : Sink) : sink.passed burst a = burst.take k := by
  simp [Sink.passed, Sink.firstPart, htaken, hstray]

/-- If it keeps the contract, it gains the given merge of them and leaves the mark of a broken contract as it was. -/
theorem Sink.write_of_taking {sink : Sink} {a : SinkAnswer} {burst zs rest : List Byte} {k : Nat} (htaken : a.taken = k)
    (hstray : a.stray = burst.take k) (hmerged : interleave a.mix (burst.take k) sink.other = (zs, rest))
    (hhonours : honours a burst) :
    (sink.write burst a).received = sink.received ++ zs ∧ (sink.write burst a).other = rest ∧
      (sink.write burst a).shortWrite = sink.shortWrite := by
  have hpassed : sink.passed burst a = burst.take k := Sink.passed_of_taking htaken hstray sink
  refine ⟨?_, ?_, ?_⟩
  · rw [Sink.write_received, hpassed, hmerged]
  · rw [Sink.write_other, hpassed, hmerged]
  · rw [Sink.write_shortWrite, shortAnswer_eq_false.2 hhonours, Bool.or_false]

/-- Settles O33: the failing answer that took the first `k` bytes. -/
theorem anyFirstPartMayArrive : Obligations.AnyFirstPartMayArrive := by
  intro i burst s e k he hl hsole _
  refine ⟨answerTaking (some e) burst k [], _, exec_settle he hl _, rfl, ?_⟩
  have hsettled : (s.settle (answerTaking (some e) burst k [])).soleWriter := hsole
  rw [State.afterWrite_sink, Sink.write_received_alone burst _ hsettled, Sink.passed_of_taking rfl rfl]
  rfl

/-- Settles O37: a write gains a merge of a first part of its burst, and the answer that took the first `k` bytes in the order of
the given interleaving gains just that. -/
theorem everyInterleavingCanHappen : Obligations.EveryInterleavingCanHappen := by
  constructor
  · intro i burst s t he h hkept
    obtain rfl := exec_encode_inv he h
    exact Sink.write_gainedMerge hkept
  · intro i burst s failure k gone rest zs he hreturns _ hwhole hother hmerge
    obtain ⟨mix, hmix⟩ := interleave_complete hmerge rest
    obtain ⟨htaken, hstray, horder, hfailure⟩ :=
      Sink.nextAnswer_draws (k := (s.settle (answerTaking failure burst k mix)).sink) rfl
    have hmerged : interleave (s.settle (answerTaking failure burst k mix)).sink.nextAnswer.mix (burst.take k)
        s.sink.other = (zs, rest) := by
      rw [horder, hother]
      exact hmix
    have hhonours : honours (s.settle (answerTaking failure burst k mix)).sink.nextAnswer burst := fun hnone => by
      rw [htaken]
      exact (hwhole (hfailure hnone)).ge
    exact ⟨answerTaking failure burst k mix, _, rfl, exec_next_of_encode he hreturns,
      Sink.write_of_taking htaken hstray hmerged hhonours⟩

/-! ## A broken contract -/

/-- An answer that took nothing, of a sink that passes on the given bytes once its contract is broken. -/
def answerStray (failure : Option Err) (zs : List Byte) : SinkAnswer :=
  { count := 0, failure := failure, taken := 0, stray := zs, mix := [] }

/-- After a write with which the contract is broken the device has gained those bytes. -/
theorem Sink.write_received_stray {k : Sink} {burst zs : List Byte} {failure : Option Err}
    (hbroken : (k.write burst (answerStray failure zs)).shortWrite = true) :
    (k.write burst (answerStray failure zs)).received = k.received ++ zs := by
  rw [Sink.write_received, Sink.passed_broken hbroken]
  rfl

/-- Settles O59: the mark of one write, and the answers that pass on any bytes. -/
theorem shortWriteLeavesStreamFree : Obligations.ShortWriteLeavesStreamFree := by
  refine ⟨?_, ?_, ?_⟩
  · intro i burst s t he h
    obtain rfl := exec_encode_inv he h
    rw [State.afterWrite_sink, Sink.write_kept, shortAnswer_eq_false]
  · intro i burst zs s he hne hl
    have hbroken : ((s.settle (answerStray none zs)).sink.write burst (answerStray none zs)).shortWrite = true := by
      simp [shortAnswer, answerStray, List.length_pos_iff.2 hne]
    exact ⟨answerStray none zs, _, exec_settle he hl _, rfl, hbroken, Sink.write_received_stray hbroken⟩
  · intro i burst zs s failure he hshort hl
    have hbroken : ((s.settle (answerStray failure zs)).sink.write burst (answerStray failure zs)).shortWrite = true := by
      simp [State.settle, hshort]
    exact ⟨answerStray failure zs, _, rfl, exec_settle he hl _, rfl, hbroken, Sink.write_received_stray hbroken⟩

end Sys2Proof.Machine
end

section
/-!
PROOFS. A reader of the stream where a burst is cut or a frame is broken (30_encoding.md rule R72, 70_reset_and_hazards.md rule R240).
-/

namespace Sys2Proof

/-- No opcode has more than nine argument bytes (30_encoding.md rule R68). -/
theorem Opcode.argCount_le_nine {o : Opcode} {n : Nat} (h : o.argCount = some n) : n ≤ 9 := by
  cases o <;> cases h <;> decide

/-- The frame the reader stands in takes at most nine more bytes, where that is known. -/
def ReaderState.MissesAtMostNine (r : ReaderState) : Prop :=
  ∀ n, r.missing = some n → n ≤ 9

/-- What an opcode byte leaves missing is its number of argument bytes. -/
theorem ReaderState.feed_opcode_missesAtMostNine (b : Byte) : (ReaderState.opcode.feed b).2.MissesAtMostNine := by
  intro n hn
  simp only [ReaderState.feed] at hn
  split at hn
  case h_1 => cases hn
  case h_2 o _ =>
    split at hn
    case h_1 => cases hn
    case h_2 => cases hn; decide
    case h_3 m hcount => cases hn; exact Opcode.argCount_le_nine hcount

theorem ReaderState.feed_missesAtMostNine {r : ReaderState} (hr : r.MissesAtMostNine) (b : Byte) :
    (r.feed b).2.MissesAtMostNine := by
  cases r with
  | text =>
    intro n hn
    by_cases hb : b = commandPrefix <;> simp [ReaderState.feed, ReaderState.missing, hb] at hn
    omega
  | opcode => exact ReaderState.feed_opcode_missesAtMostNine b
  | args o got more =>
    have hmore : more + 1 ≤ 9 := hr _ rfl
    cases more with
    | zero => rintro n ⟨⟩; decide
    | succ m => rintro n ⟨⟩; omega
  | splash got => rintro n ⟨⟩
  | lost c rest => rintro n ⟨⟩

theorem ReaderState.read_missesAtMostNine {r : ReaderState} (hr : r.MissesAtMostNine) (bytes : List Byte) :
    (r.read bytes).2.MissesAtMostNine := by
  induction bytes generalizing r with
  | nil => exact hr
  | cons b rest ih => exact ih (ReaderState.feed_missesAtMostNine hr b)

/-- Settles O46: a reader outside a frame misses nothing, and every byte keeps the bound. -/
theorem brokenFrameTakesAtMostNine : Obligations.BrokenFrameTakesAtMostNine := by
  have htext : ReaderState.text.MissesAtMostNine := by
    rintro n ⟨⟩
    decide
  exact fun bytes => ReaderState.read_missesAtMostNine htext bytes

end Sys2Proof

namespace Sys2Proof.Machine

/-- Settles O45: the two RAWs add the cut burst, in the stream and at the device, and a reader does not see the cut. -/
theorem burstsDoNotMarkFrames : Obligations.BurstsDoNotMarkFrames := by
  intro i xs ys s t u hf he hx hy
  have hread : ReaderState.text.read (xs ++ ys) = (framesOf i, .text) := ReaderState.read_framed hf he
  have hparts := hread
  rw [ReaderState.read_append, Prod.mk.injEq] at hparts
  obtain ⟨hframes, hend⟩ := hparts
  refine ⟨xs ++ ys, ?_, hread, hframes, hend, fun hsole hkept hokx hoky => ?_⟩
  · rw [exec_streamOf (encode_raw ys) hy, exec_streamOf (encode_raw xs) hx, List.append_assoc]
  · rw [exec_received_whole (encode_raw ys) hy (exec_soleWriter hsole hx) hkept hoky,
      exec_received_whole (encode_raw xs) hx hsole (exec_kept_before hy hkept) hokx, List.append_assoc]

end Sys2Proof.Machine
end

section
/-!
PROOFS. The packer on long rows and on rows of five (42_glyph.md rules R152, R155, R159), and the operations that stand for others
(30_encoding.md rule R77).
-/

namespace Sys2Proof

/-! ## Eight values -/

theorem Octet.ext_get {α : Type} {a b : Octet α} (h : ∀ k, a.get k = b.get k) : a = b := by
  cases a
  cases b
  simpa [Octet.get, Fin.forall_fin_succ] using h

theorem Octet.get_map {α β : Type} (f : α → β) (o : Octet α) (k : Fin 8) : (o.map f).get k = f (o.get k) := by
  fin_cases k <;> rfl

theorem Octet.get_fill {α : Type} (a : α) (k : Fin 8) : (Octet.fill a).get k = a := by
  fin_cases k <;> rfl

end Sys2Proof

namespace Sys2Proof.Machine

/-! ## Marks -/

theorem rowMarks_append (r s : Row) : rowMarks (r ++ s) = rowMarks r ++ rowMarks s := by
  simp [rowMarks]

/-- Settles O50, by what the character test compares with. -/
theorem onlySpaceAndPeriodAreOff : Obligations.OnlySpaceAndPeriodAreOff := by
  intro c
  simp [isOn, or_iff_not_imp_left]

/-- A row whose characters are all of one class has the marks of any such row of its length. -/
theorem rowMarks_of_forall {row : Row} {on : Bool} (h : ∀ c ∈ row, isOn c = on) :
    rowMarks row = List.replicate row.length on := by
  simpa [rowMarks, List.eq_replicate_iff] using h

/-- Settles O53: the eight bits of a row's byte are its last eight marks. -/
theorem lastEightCharactersCount : Obligations.LastEightCharactersCount := by
  intro before last hlast
  refine BitVec.eq_of_getLsbD_eq fun j hj => ?_
  have hlt : j < (rowMarks last).reverse.length := by simpa [hlast] using hj
  rw [packRow_getLsbD _ hj, packRow_getLsbD _ hj, rowMarks_append, List.reverse_append, List.getElem?_append_left hlt]

/-! ## Short rows -/

theorem markSum_lt (row : Row) : markSum row < 2 ^ row.length := by
  induction row using List.reverseRecOn with
  | nil => decide
  | append_singleton row c ih =>
    have hbit : (isOn c).toNat ≤ 1 := Bool.toNat_le _
    rw [markSum_append_char, List.length_append, List.length_singleton, pow_succ]
    omega

theorem packRow_le_of_length_five {row : Row} (h : row.length = 5) : packRow row ≤ 0x1F#8 := by
  have hsum : markSum row < 2 ^ 5 := h ▸ markSum_lt row
  rw [BitVec.le_def, packRow_toNat]
  exact (Nat.mod_le _ _).trans (Nat.le_of_lt_succ hsum)

/-- Rows of one length, at most eight, that pack to one byte have the same marks. -/
theorem rowMarks_eq_of_packRow_eq {r s : Row} (hlen : r.length = s.length) (hle : s.length ≤ 8)
    (h : packRow r = packRow s) : rowMarks r = rowMarks s := by
  refine List.reverse_injective (List.ext_getElem (by simpa using hlen) fun j hr hs => ?_)
  have hj : j < 8 := lt_of_lt_of_le (by simpa using hs) hle
  have hbits : (packRow r).getLsbD j = (packRow s).getLsbD j := by rw [h]
  rwa [packRow_getLsbD r hj, packRow_getLsbD s hj, List.getElem?_eq_getElem hr, List.getElem?_eq_getElem hs] at hbits

/-- The row of five characters that spells the low bits of a byte: `X` for a 1, a period for a 0. -/
def rowOfByte (b : Byte) : Row :=
  ((List.range 5).map fun j => if b.getLsbD j then 0x58 else 0x2E).reverse

theorem length_rowOfByte (b : Byte) : (rowOfByte b).length = 5 := by
  simp [rowOfByte]

theorem rowMarks_rowOfByte (b : Byte) : rowMarks (rowOfByte b) = ((List.range 5).map b.getLsbD).reverse := by
  have hmark : ∀ j, isOn (if b.getLsbD j then 0x58 else 0x2E) = b.getLsbD j := by
    intro j
    cases b.getLsbD j <;> rfl
  simp [rowMarks, rowOfByte, hmark]

/-- A byte with bits 7 to 5 clear is packed from its row. -/
theorem packRow_rowOfByte {b : Byte} (hb : b ≤ 0x1F#8) : packRow (rowOfByte b) = b := by
  refine BitVec.eq_of_getLsbD_eq fun j hj => ?_
  rw [packRow_getLsbD _ hj, rowMarks_rowOfByte, List.reverse_reverse]
  by_cases hlow : j < 5
  · simp [hlow]
  · have hlt : b.toNat < 2 ^ j :=
      calc
        b.toNat < 2 ^ 5 := Nat.lt_succ_of_le (BitVec.le_def.1 hb)
        _ ≤ 2 ^ j := Nat.pow_le_pow_right (by decide) (Nat.le_of_not_lt hlow)
    rw [BitVec.getLsbD, Nat.testBit_lt_two_pow hlt]
    simp [hlow]

/-! ## Patterns five characters wide -/

/-- A pattern whose rows have the marks of one row packs to that row's byte eight times. -/
theorem pack_eq_fill {p : Pattern} {row : Row} (h : ∀ k, rowMarks (p.get k) = rowMarks row) :
    pack p = Octet.fill (packRow row) :=
  Octet.ext_get fun k => by rw [pack_get, packRow_congr (h k), Octet.get_fill]

theorem rowMarks_eq_of_class {row row' : Row} {on : Bool} (hlen : row.length = row'.length)
    (h : ∀ c ∈ row, isOn c = on) (h' : ∀ c ∈ row', isOn c = on) : rowMarks row = rowMarks row' := by
  rw [rowMarks_of_forall h, rowMarks_of_forall h', hlen]

/-- Settles O54, row by row. -/
theorem fiveWidePatternsAreGlyphs : Obligations.FiveWidePatternsAreGlyphs := by
  refine ⟨?_, ?_, ?_, ?_, ?_⟩
  · intro p hp k
    rw [pack_get]
    exact packRow_le_of_length_five (hp k)
  · intro p q hp hq h k
    have hrow : packRow (p.get k) = packRow (q.get k) := by rw [← pack_get, ← pack_get, h]
    exact rowMarks_eq_of_packRow_eq ((hp k).trans (hq k).symm) (by rw [hq k]; decide) hrow
  · intro g hg
    refine ⟨g.map rowOfByte, fun k => ?_, Octet.ext_get fun k => ?_⟩
    · rw [Octet.get_map, length_rowOfByte]
    · rw [pack_get, Octet.get_map, packRow_rowOfByte (hg k)]
  · intro p hp hoff
    exact pack_eq_fill (row := List.replicate 5 0x2E) fun k => rowMarks_eq_of_class (hp k) (hoff k) (by decide)
  · intro p hp hon
    exact pack_eq_fill (row := List.replicate 5 0x58) fun k => rowMarks_eq_of_class (hp k) (hon k) (by decide)

/-! ## Operations that stand for others -/

/-- DEFINE_CHAR's encoding: the packed bytes in index order (rule R158). -/
theorem encode_pseudoDefineChar (slot : Byte) (rows : Pattern) :
    encode (pseudoDefineChar slot rows) = some ([0xFE#8, 0x4E#8, slot] ++ rows.toList.map packRow) := rfl

/-- Settles O55, from the encoding. -/
theorem defineCharSendsPackedBytes : Obligations.DefineCharSendsPackedBytes := by
  intro slot rows s hreturns
  exact exec_next_of_encode (encode_pseudoDefineChar slot rows) hreturns

/-- Settles O23, from the encoding. -/
theorem setSplashPresents : Obligations.SetSplashPresents := by
  intro text s hreturns
  exact exec_next_of_encode rfl hreturns

/-- Settles O24, from the encodings. -/
theorem bankFramesPresent : Obligations.BankFramesPresent := by
  intro bank s hreturns
  exact ⟨exec_next_of_encode rfl hreturns, exec_next_of_encode rfl hreturns⟩

/-- Settles O49: RAW of an operation's burst is the operation. -/
theorem pseudoOperationsAreTheirExpansions : Obligations.PseudoOperationsAreTheirExpansions :=
  ⟨fun _ => rfl, fun _ => rfl, fun text s => (rawOfBurstIsTheOperation (.setSplash text) _ s rfl).symm,
    fun bank s => (rawOfBurstIsTheOperation (.saveChars bank) _ s rfl).symm,
    fun bank s => (rawOfBurstIsTheOperation (.loadChars bank) _ s rfl).symm⟩

end Sys2Proof.Machine
end
